-- ==== Sys2Proof/Word.lean ====
section
/-! DEFINITION. The word types of the block: the 32-bit host word (R48), the 64-bit packed
snapshot (R23), and the two control words of R69 and R80. -/

namespace Sys2Proof

/-- A host register word: 32 bits, bit 0 the least significant (R48). -/
abbrev Word := BitVec 32

/-- One byte lane of a host word (R48). -/
abbrev Byte := BitVec 8

/-- A packed snapshot: R1 in bits [18:0], R2 in [40:19], R3 in [63:41] (R23). -/
abbrev Snapshot := BitVec 64

/-- A control word of the bank's internal port: BOP in bits [1:0], DIN in bit [2] (R80). -/
abbrev PortWord := BitVec 3

end Sys2Proof
end

