-- ==== Sys2Proof/Config.lean ====
section
/-! DEFINITION. What is fixed for the block (R5), the OPEN parameters as free constants with no
body (R6, R7), and the free values the model draws (R56). -/

namespace Sys2Proof

/-- The configuration of one shift register: its size, the tap positions counted from the input
end, and the clock-control position (R5). -/
structure RegConfig where
  size : Nat
  taps : List Nat
  clockIndex : Nat
  deriving DecidableEq, Repr

namespace Config

/-- Register R1 of the table of R5. -/
def reg1 : RegConfig := { size := 19, taps := [13, 16, 17, 18], clockIndex := 8 }

/-- Register R2 of the table of R5. -/
def reg2 : RegConfig := { size := 22, taps := [20, 21], clockIndex := 10 }

/-- Register R3 of the table of R5. -/
def reg3 : RegConfig := { size := 23, taps := [7, 20, 21, 22], clockIndex := 10 }

/-- KEY_BITS (R5). -/
def keyBits : Nat := 64

/-- FRAME_BITS (R5). -/
def frameBits : Nat := 22

/-- WARMUP, the number of majority steps at the end of INIT (R5). -/
def warmup : Nat := 100

/-- The free number behind `ksCap`: nothing constrains it (R6, log 1). -/
opaque ksCapChoice : Nat

/-- KS_CAP, OPEN: any value with 1 ≤ KS_CAP ≤ 2^24 - 1, read from the free number (R6, log 1).
Only `State.reset` reads it: every rule reads the CAP register of the state. -/
def ksCap : BitVec 24 := BitVec.ofNat 24 (ksCapChoice % 16777215 + 1)

/-- The free number behind `base` (R7, log 12). -/
opaque baseChoice : Nat

/-- BASE, OPEN: the platform address of the 256-byte window, aligned to its size (R7, R46, log 12). -/
def base : Nat := 256 * baseChoice

/-- LAT_INIT, OPEN: no rule depends on it (R7, log 13). -/
opaque latInit : Nat

/-- LAT_GEN(n), OPEN: no rule depends on it (R7, log 13). -/
opaque latGen : Nat → Nat

/-- LAT_ENCDEC(n), OPEN: no rule depends on it (R7, log 13). -/
opaque latEncdec : Nat → Nat

/-- The k-th free value drawn by a read while BUSY = 1: unconstrained (R56, log 5). -/
opaque freeDraw : Nat → Word

end Config

end Sys2Proof
end

