-- ==== Sys2Proof/Syntax.lean ====
section
/-! DEFINITION. The instructions: one constructor per row of spec/opcode_table.json. -/

namespace Sys2Proof

/-- The three host commands (R70) and the four bank operations (R81). The DIN bit that HOLD, CLEAR
and MSTEP ignore is no operand of theirs (log 15). -/
inductive Instr where
  /-- INIT(fe): FE = 1 says that a frame is supplied (R71, R113). -/
  | init (fe : Bool)
  /-- GEN(n): generate n keystream bits (R72, R114). -/
  | gen (n : Nat)
  /-- ENCDEC(n): mask n data bits (R72, R118). -/
  | encdec (n : Nat)
  /-- HOLD: no register changes (R91). -/
  | hold
  /-- CLEAR: all three registers to zero (R89). -/
  | clear
  /-- LOAD(b): one unconditional clock of all three with b injected (R90). -/
  | load (din : Bool)
  /-- MSTEP: one majority-controlled step (R105). -/
  | mstep
  deriving DecidableEq, Repr

end Sys2Proof
end

