-- ==== Sys2Proof/WellFormed.lean ====
section
/-! DEFINITION. Which instructions have an encoding, and which register configurations have a
model. -/

namespace Sys2Proof

/-- The largest length a command word can carry: ARG has 24 bits (R72, R77). -/
def maxLength : Nat := 16777215

/-- An instruction whose operands fit their fields (R72, R77). -/
def Instr.wf : Instr → Bool
  | .init _ => true
  | .gen n => decide (n ≤ maxLength)
  | .encdec n => decide (n ≤ maxLength)
  | .hold => true
  | .clear => true
  | .load _ => true
  | .mstep => true

/-- Every tap and the clock-control position lie inside the register (R8). -/
def RegConfig.wf (c : RegConfig) : Bool :=
  c.taps.all (fun j => decide (j < c.size)) && decide (c.clockIndex < c.size)

/-- The source's ConfigurationError, with the check that failed (R8, R132). -/
inductive ConfigError where
  | tapOutsideRegister
  | clockIndexOutsideRegister
  deriving DecidableEq, Repr

/-- Construction of a register configuration: an ill-formed one is refused (R8, R101). -/
def RegConfig.construct (size : Nat) (taps : List Nat) (clockIndex : Nat) :
    Except ConfigError RegConfig :=
  if taps.any (fun j => decide (size ≤ j)) then .error .tapOutsideRegister
  else if size ≤ clockIndex then .error .clockIndexOutsideRegister
  else .ok { size := size, taps := taps, clockIndex := clockIndex }

end Sys2Proof
end

