-- ==== Sys2Proof/Decode.lean ====
section
/-! DEFINITION. The decoder of the two formats, total and rejecting by name, and after it the
encoder, both written from spec/30_encoding.md. -/

namespace Sys2Proof

/-- Why a word is no instruction. Every one of these is an ILLEGAL command word (R73, R74) but
for the last two, which no command word gives. -/
inductive DecodeError where
  /-- OP is 0x00 or 0x04 to 0xFF (R74). -/
  | reservedOp (op : BitVec 8)
  /-- OP is INIT and one of the bits [31:9] is set (R73). -/
  | reservedInitBits (bits : BitVec 23)
  /-- A byte string that holds no whole word. -/
  | truncated
  /-- A number that does not fit the 3-bit port word (R80). -/
  | portWordTooWide
  deriving DecidableEq, Repr

/-- A word of one of the two formats of the opcode table. -/
inductive Encoding where
  /-- A command word, as written to CMD (R69). -/
  | cmd32 (w : Word)
  /-- A control word of the bank's internal port (R80). -/
  | bank3 (w : PortWord)
  deriving DecidableEq, Repr

/-- OP, word bits [7:0] (R69). -/
def cmdOp (w : Word) : BitVec 8 := w.extractLsb' 0 8

/-- ARG, word bits [31:8] (R69). -/
def cmdArg (w : Word) : BitVec 24 := w.extractLsb' 8 24

/-- FE, word bit 8 (R71). -/
def cmdFe (w : Word) : Bool := w.getLsbD 8

/-- The bits of an INIT word that must be 0, word bits [31:9] (R71). -/
def cmdInitReserved (w : Word) : BitVec 23 := w.extractLsb' 9 23

/-- The command decoder of R75, total on all 2^32 words. -/
def decodeCmd (w : Word) : Except DecodeError Instr :=
  if cmdOp w = 0x01#8 then
    if cmdInitReserved w = 0#23 then .ok (.init (cmdFe w))
    else .error (.reservedInitBits (cmdInitReserved w))
  else if cmdOp w = 0x02#8 then .ok (.gen (cmdArg w).toNat)
  else if cmdOp w = 0x03#8 then .ok (.encdec (cmdArg w).toNat)
  else .error (.reservedOp (cmdOp w))

/-- BOP, port bits [1:0] (R80). -/
def portBop (w : PortWord) : BitVec 2 := w.extractLsb' 0 2

/-- DIN, port bit [2] (R80). -/
def portDin (w : PortWord) : Bool := w.getLsbD 2

/-- The bank port decoder of R81: every one of the eight words is defined. -/
def decodePort (w : PortWord) : Instr :=
  if portBop w = 0b00#2 then .hold
  else if portBop w = 0b01#2 then .clear
  else if portBop w = 0b10#2 then .load (portDin w)
  else .mstep

/-- The decoder over both formats. -/
def decode : Encoding → Except DecodeError Instr
  | .cmd32 w => decodeCmd w
  | .bank3 w => .ok (decodePort w)

/-- A 32-bit word from its four byte lanes, lane m carrying bits [8m+7 : 8m] (R48). -/
def wordOfLanes (b0 b1 b2 b3 : Byte) : Word := b3 ++ b2 ++ b1 ++ b0

/-- The byte lanes of a word, lane 0 first (R48). -/
def lanesOfWord (w : Word) : List Byte :=
  [w.extractLsb' 0 8, w.extractLsb' 8 8, w.extractLsb' 16 8, w.extractLsb' 24 8]

/-- Decodes one command from a byte string, lane 0 first, and answers the bytes after it: a
command is always exactly one word (R76). -/
def decodeCmdBytes : List Byte → Except DecodeError (Instr × List Byte)
  | b0 :: b1 :: b2 :: b3 :: rest =>
    match decodeCmd (wordOfLanes b0 b1 b2 b3) with
    | .ok i => .ok (i, rest)
    | .error e => .error e
  | _ => .error .truncated

/-- A number as a port word, refused where it does not fit (R80). -/
def portWordOfNat (w : Nat) : Except DecodeError PortWord :=
  if w < 8 then .ok (BitVec.ofNat 3 w) else .error .portWordTooWide

/-- The instruction the decoder reads from the word `w` of a row of the opcode table that has
`nbits` bits, in whole bytes: 32 for a command row, fewer for a bank port row (log 17). -/
def decodeTableWord (nbits w : Nat) : Option Instr :=
  if 32 ≤ nbits then
    if w < 2 ^ 32 then
      match decodeCmd (BitVec.ofNat 32 w) with
      | .ok i => some i
      | .error _ => none
    else none
  else
    match portWordOfNat w with
    | .ok p => some (decodePort p)
    | .error _ => none

/-- A command word from its two fields (R69). -/
def packCmd (arg : BitVec 24) (op : BitVec 8) : Word := arg ++ op

/-- A port word from its two fields (R80). -/
def packPort (din : Bool) (bop : BitVec 2) : PortWord := BitVec.ofBool din ++ bop

/-- The word of an instruction, from the tables of R70 to R72 and R81. An ignored DIN is
encoded as 0 (log 15). -/
def encode : Instr → Encoding
  | .init fe => .cmd32 (packCmd (if fe then 1#24 else 0#24) 0x01#8)
  | .gen n => .cmd32 (packCmd (BitVec.ofNat 24 n) 0x02#8)
  | .encdec n => .cmd32 (packCmd (BitVec.ofNat 24 n) 0x03#8)
  | .hold => .bank3 (packPort false 0b00#2)
  | .clear => .bank3 (packPort false 0b01#2)
  | .load din => .bank3 (packPort din 0b10#2)
  | .mstep => .bank3 (packPort false 0b11#2)

/-- The mask and match of an instruction's row of the opcode table. -/
structure TableRow where
  mask : Nat
  pattern : Nat
  deriving DecidableEq, Repr

/-- The rows of spec/opcode_table.json, by instruction. -/
def tableRow : Instr → TableRow
  | .init _ => { mask := 0xFFFFFEFF, pattern := 0x00000001 }
  | .gen _ => { mask := 0x000000FF, pattern := 0x00000002 }
  | .encdec _ => { mask := 0x000000FF, pattern := 0x00000003 }
  | .hold => { mask := 0b011, pattern := 0b000 }
  | .clear => { mask := 0b011, pattern := 0b001 }
  | .load _ => { mask := 0b011, pattern := 0b010 }
  | .mstep => { mask := 0b011, pattern := 0b011 }

/-- The number an encoding is, bit 0 its least significant bit. -/
def Encoding.toNat : Encoding → Nat
  | .cmd32 w => w.toNat
  | .bank3 w => w.toNat

end Sys2Proof
end

