-- ==== Sys2Proof/Machine/State.lean ====
section
/-! DEFINITION. The state of the block, the reasons a step can stop, and the state after reset. -/

namespace Sys2Proof.Machine

/-- The three shift registers of three_lfsr_bank. Bit j is position j counted from the input end
(R9, R14). -/
structure Bank where
  r1 : BitVec 19
  r2 : BitVec 22
  r3 : BitVec 23
  deriving DecidableEq, Repr

/-- One event of the trace port: the packed snapshots before and after one step (R83, R121). -/
structure TraceEvent where
  before : Snapshot
  after : Snapshot
  deriving DecidableEq, Repr

/-- One operation of a host program (R58, R59, R79). The name that a read may carry is the one of
`rd OFF -> name` (R78). -/
inductive HostOp where
  /-- MemRead(off, size). -/
  | read (off size : Nat) (name : Option String)
  /-- MemWrite(off, size, v). -/
  | write (off size : Nat) (v : Word)
  /-- `poll`: read STATUS until its bit 0 is 0 (R79). -/
  | poll
  deriving DecidableEq, Repr

/-- What one host read returned. -/
structure ReadRecord where
  off : Nat
  name : Option String
  value : Word
  deriving DecidableEq, Repr

/-- How far the sequencer has come with the command in flight, cycle by cycle: R19's internal step
counters (log 9). -/
structure BankCycles where
  /-- The bank when the command's first bank cycle began. -/
  start : Bank
  /-- The port words still to be driven, next first (R80, R92). -/
  left : List PortWord
  deriving DecidableEq, Repr

/-- Whose turn it is to move (R60, R112, R147, log 2). -/
inductive Turn where
  /-- The Host makes its next access. -/
  | host
  /-- The Engine performs the pending command, if there is one. -/
  | engine
  /-- RST or power-up, after `emitted` of the pending command's trace events (R147, R148). -/
  | reset (emitted : Nat)
  /-- The sequencer drives the bank's internal port for one bank cycle: the next word of the
  command in flight, HOLD where there is none (R80, R91, R92, log 9). -/
  | bankCycle
  deriving DecidableEq, Repr

/-- The whole state: what spec/10_state.md gives the block, then the model's own fields: `cycles`,
the sequencer's progress, and `sched`, `prog`, `reads`, `draws`, which stand for the agents around
the block. -/
structure State where
  /-- R1, R2 and R3 (R14). -/
  bank : Bank
  /-- init_done: INIT has completed since reset (R20). -/
  initDone : Bool
  /-- ks, the keystream buffer, bit 0 first; its length is KS_LEN (R21, R37). -/
  ks : List Bool
  /-- hist, the snapshot history, entry 0 first (R22). -/
  hist : List Snapshot
  /-- KEY: bit k is the k-th key bit fed (R24). -/
  key : BitVec 64
  /-- FRAME: bit k is the k-th frame bit fed (R25). -/
  frame : BitVec 22
  /-- DATA, KS_CAP bits, bit 0 first (R26). -/
  data : List Bool
  /-- RESULT, KS_CAP bits, bit 0 first (R27). -/
  result : List Bool
  /-- IDX (R28). -/
  idx : BitVec 24
  /-- ERR (R29, R131). -/
  err : BitVec 4
  /-- BUSY (R30). -/
  busy : Bool
  /-- PEND: the command word in flight, or none (R30). -/
  pend : Option Word
  /-- CAP, which holds KS_CAP and never changes (R38). -/
  cap : BitVec 24
  /-- The trace port's events, oldest first (R31). -/
  trace : List TraceEvent
  /-- The bank cycles of the command in flight, none while none of them has begun (R19, log 9). -/
  cycles : Option BankCycles
  /-- The turns still to be taken, next first (log 2). -/
  sched : List Turn
  /-- The Host's remaining operations, next first (R60, log 4). -/
  prog : List HostOp
  /-- What the Host's reads returned, oldest first (log 4). -/
  reads : List ReadRecord
  /-- How many free values have been drawn (R56, log 5). -/
  draws : Nat
  deriving DecidableEq, Repr

/-- Why the machine stops with a fault. -/
inductive Fault where
  /-- Raised by a Host turn: an access inside the window that is not an aligned 32-bit one, at
  which the spec says the Host is stuck (R53, log 6). Safe: nothing is claimed beyond it. -/
  | stuckAccess (off size : Nat)
  /-- Raised by an Engine turn with BUSY = 1 and PEND = none, which R30's invariant rules out
  (log 8). Safe: no run reaches it. -/
  | noPendingCommand
  deriving DecidableEq, Repr

/-- Why a step has no meaning in the model. -/
inductive Refusal where
  /-- Raised by an arm of `exec` whose instruction has no meaning yet; no arm is left so. Safe. -/
  | notModelled (mnemonic : String)
  /-- Raised by a Host turn: an access beyond the 256-byte window, which the block does not
  decode; what it does is the platform's choice (R52, R68, log 7). Safe. -/
  | outsideWindow (off : Nat)
  deriving DecidableEq, Repr

/-- The reset values of R45 for a block whose KS_CAP is `cap`, with nothing scheduled, no host
program and nothing read. -/
def State.resetWith (cap : BitVec 24) : State where
  bank := { r1 := 0#19, r2 := 0#22, r3 := 0#23 }
  initDone := false
  ks := []
  hist := []
  key := 0#64
  frame := 0#22
  data := List.replicate cap.toNat false
  result := List.replicate cap.toNat false
  idx := 0#24
  err := 0#4
  busy := false
  pend := none
  cap := cap
  trace := []
  cycles := none
  sched := []
  prog := []
  reads := []
  draws := 0

/-- The block right after reset (R45), its KS_CAP the free constant of R6 (log 1). -/
def State.reset : State := State.resetWith Config.ksCap

end Sys2Proof.Machine
end

