-- ==== Sys2Proof/Machine/Ops.lean ====
section
/-! DEFINITION. The named operations that every meaning is built from: bits and bit strings, the
single-register transition, snapshots, the updates of State, and raising an error. -/

namespace Sys2Proof.Machine

/-! ### Bits -/

/-- The word whose bit b is `f b`: `word(f)` of R58, at any width. -/
def bitsOf : (n : Nat) → (Nat → Bool) → BitVec n
  | 0, _ => 0#0
  | n + 1, f => BitVec.cons (f n) (bitsOf n f)

/-- The bit string of a register or of a key or frame: character j is bit j, so the input end,
or the first bit fed, comes first (R10). -/
def bitstring {n : Nat} (r : BitVec n) : List Bool := (List.range n).map (fun j => r.getLsbD j)

/-! ### One shift register -/

/-- The feedback: the exclusive-or of the bits at the tap positions, read from the contents
before the transition (R86). -/
def feedback {n : Nat} (c : RegConfig) (r : BitVec n) : Bool :=
  c.taps.foldr (fun j acc => r.getLsbD j ^^ acc) false

/-- `clock_i(r, x)`: shift one place toward the output end and insert feedback ⊕ x at the input
end (R87). -/
def clock {n : Nat} (c : RegConfig) (r : BitVec n) (x : Bool) : BitVec n :=
  (r <<< 1) ||| (BitVec.ofBool (feedback c r ^^ x)).setWidth n

/-- `clockbit_i(r)` (R88). -/
def clockBit {n : Nat} (c : RegConfig) (r : BitVec n) : Bool := r.getLsbD c.clockIndex

/-- `outbit_i(r)` (R88). -/
def outBit {n : Nat} (c : RegConfig) (r : BitVec n) : Bool := r.getLsbD (c.size - 1)

/-! ### Snapshots -/

/-- `snap(R1, R2, R3) = {R3, R2, R1}`: the packed form (R23). -/
def Bank.snap (b : Bank) : Snapshot := b.r3 ++ b.r2 ++ b.r1

/-- The bank a packed snapshot was taken from: each form determines the other (R23). -/
def Bank.ofSnap (w : Snapshot) : Bank :=
  { r1 := w.extractLsb' 0 19, r2 := w.extractLsb' 19 22, r3 := w.extractLsb' 41 23 }

/-- The mapping form of a snapshot, register name to bit string (R23). -/
def Bank.mapping (b : Bank) : List (String × List Bool) :=
  [("R1", bitstring b.r1), ("R2", bitstring b.r2), ("R3", bitstring b.r3)]

/-! ### Updates of State -/

namespace State

/-- The bank's registers are written together (R15). -/
def setBank (b : Bank) (s : State) : State := { s with bank := b }

/-- ERR ← code. -/
def setErr (e : BitVec 4) (s : State) : State := { s with err := e }

/-- init_done ← 1 (R20). -/
def setInitDone (s : State) : State := { s with initDone := true }

/-- ks ← [] and hist ← [] (R113, R114). -/
def clearBuffers (s : State) : State := { s with ks := [], hist := [] }

/-- What one step of GEN's body records when the bank goes to `b'`: the snapshot before it, the
trace event, the new bank and the output bit (R114, R121). -/
def recordStep (b' : Bank) (o : Bool) (s : State) : State :=
  { s with
    hist := s.hist ++ [s.bank.snap]
    bank := b'
    trace := s.trace ++ [{ before := s.bank.snap, after := b'.snap }]
    ks := s.ks ++ [o] }

/-- RESULT ← the whole buffer (R119). -/
def setResult (r : List Bool) (s : State) : State := { s with result := r }

/-- PEND ← w, BUSY ← 1: a command is issued (R30, R59). -/
def issue (w : Word) (s : State) : State := { s with pend := some w, busy := true }

/-- PEND ← none, BUSY ← 0: the Engine's step ends (R112). -/
def retire (s : State) : State := { s with pend := none, busy := false }

/-- KEY ← k. -/
def setKey (k : BitVec 64) (s : State) : State := { s with key := k }

/-- FRAME ← f. -/
def setFrame (f : BitVec 22) (s : State) : State := { s with frame := f }

/-- IDX ← i. -/
def setIdx (i : BitVec 24) (s : State) : State := { s with idx := i }

/-- DATA ← d. -/
def setData (d : List Bool) (s : State) : State := { s with data := d }

/-- How far the sequencer has come (R19). -/
def setCycles (c : Option BankCycles) (s : State) : State := { s with cycles := c }

/-- The turns left. -/
def setSched (l : List Turn) (s : State) : State := { s with sched := l }

/-- The host operations left. -/
def setProg (l : List HostOp) (s : State) : State := { s with prog := l }

/-- The Host has read `r`. -/
def logRead (r : ReadRecord) (s : State) : State := { s with reads := s.reads ++ [r] }

/-- One more free value has been drawn. -/
def countDraw (s : State) : State := { s with draws := s.draws + 1 }

/-- KS_CAP as a number (R6, R38). -/
def ksCap (s : State) : Nat := s.cap.toNat

/-- KS_LEN = len(ks) (R21). -/
def ksLen (s : State) : Nat := s.ks.length

end State

/-! ### Errors -/

/-- The error codes the block produces (R131). -/
inductive ErrCode where
  | none
  | illegalCmd
  | usage
  | length
  deriving DecidableEq, Repr

/-- The 4-bit code of STATUS.ERR (R131). -/
def ErrCode.bits : ErrCode → BitVec 4
  | .none => 0#4
  | .illegalCmd => 1#4
  | .usage => 2#4
  | .length => 3#4

/-- `raise Err(code)`: the command ends, ERR holds the code and nothing else changes (R11, R133).
This is the block's only exception entry; it saves nothing, goes nowhere and has no return
(R136, R137). -/
def raiseErr (e : ErrCode) (s : State) : State := s.setErr e.bits

/-- The end of a successful command: ERR ← 0 (R113, R114, R118). -/
def succeed (s : State) : State := s.setErr ErrCode.none.bits

end Sys2Proof.Machine
end

