-- ==== Sys2Proof/Machine/Flags.lean ====
section
/-! DEFINITION. The fields of STATUS (R34), and the checks that decide STATUS.ERR (R134). -/

namespace Sys2Proof.Machine

/-- The STATUS word of an idle block: `zext_32({ERR[3:0], 0b00, init_done, BUSY})` (R34, R58). -/
def statusWord (s : State) : Word :=
  (s.err ++ 0b00#2 ++ BitVec.ofBool s.initDone ++ BitVec.ofBool s.busy).setWidth 32

/-- The STATUS word read while BUSY = 1: `{draw_31, 1}` (R56, R58). -/
def busyStatusWord (draw : Word) : Word := (draw.extractLsb' 0 31) ++ 1#1

/-- The error GEN(n) and ENCDEC(n) report, in the order of R134: USAGE before LENGTH. -/
def lengthCommandError (n : Nat) (s : State) : Option ErrCode :=
  if s.initDone = false then some .usage
  else if s.ksCap < n then some .length
  else none

/-- The error a decoded command reports; INIT and the bank operations report none (R113, R134). -/
def commandError (i : Instr) (s : State) : Option ErrCode :=
  match i with
  | .init _ => none
  | .gen n => lengthCommandError n s
  | .encdec n => lengthCommandError n s
  | .hold => none
  | .clear => none
  | .load _ => none
  | .mstep => none

/-- A command with length n: its checks come before its first write, and a failing check ends it
with the code and no other effect (R133, R134). -/
def checkedCommand (n : Nat) (body : State → State) (s : State) : State :=
  match lengthCommandError n s with
  | some e => raiseErr e s
  | none => succeed (body s)

end Sys2Proof.Machine
end

