-- ==== Sys2Proof/Machine/Operands.lean ====
section
/-! DEFINITION. The operands of the commands and of the host accesses: the order of key and frame
bits, the buffer windows selected by IDX, and the register map. -/

namespace Sys2Proof.Machine

/-! ### Key, frame and data operands -/

/-- The key bits in the order they are fed: KEY[0] first (R24, R94). -/
def keyBitsOf (s : State) : List Bool := bitstring s.key

/-- The frame bits in the order they are fed: FRAME[0] first (R25, R94). -/
def frameBitsOf (s : State) : List Bool := bitstring s.frame

/-- Bit k of a buffer of bits, 0 beyond its end. -/
def bufferBit (l : List Bool) (k : Nat) : Bool := l.getD k false

/-- The RESULT buffer of ENCDEC(n): DATA ⊕ ks below n and 0 from n to KS_CAP - 1 (R118, R119). -/
def maskedResult (n cap : Nat) (data ks : List Bool) : List Bool :=
  (List.range cap).map (fun k => if k < n then bufferBit data k ^^ bufferBit ks k else false)

/-! ### Windows -/

/-- Word IDX of a buffer of which the bits below `len` exist: bit b is bit 32·IDX + b (R41 to
R43). -/
def windowWord (idx : BitVec 24) (len : Nat) (l : List Bool) : Word :=
  bitsOf 32 (fun b => if 32 * idx.toNat + b < len then bufferBit l (32 * idx.toNat + b) else false)

/-- DATA after a write of `v` to word IDX: bit 32·IDX + b ← v[b] where it is below KS_CAP (R42). -/
def windowWrite (idx : BitVec 24) (cap : Nat) (v : Word) (l : List Bool) : List Bool :=
  l.mapIdx (fun k old => if k < cap ∧ k / 32 = idx.toNat then v.getLsbD (k % 32) else old)

/-- The snapshot that the HIST windows show: entry IDX, or 0 beyond KS_LEN (R44). -/
def histWindow (s : State) : Snapshot :=
  if s.idx.toNat < s.ksLen then s.hist.getD s.idx.toNat 0#64 else 0#64

/-! ### The register map -/

/-- The mapped registers of the window (R32). -/
inductive HostReg where
  | cmd | status | keyLo | keyHi | frame | ksLen | cap | r1State | r2State | r3State
  | idx | ksWin | dataWin | resWin | histLo | histHi
  deriving DecidableEq, Repr

/-- The byte offset of a register (R32). -/
def HostReg.offset : HostReg → Nat
  | .cmd => 0x00
  | .status => 0x04
  | .keyLo => 0x08
  | .keyHi => 0x0C
  | .frame => 0x10
  | .ksLen => 0x14
  | .cap => 0x18
  | .r1State => 0x1C
  | .r2State => 0x20
  | .r3State => 0x24
  | .idx => 0x28
  | .ksWin => 0x2C
  | .dataWin => 0x30
  | .resWin => 0x34
  | .histLo => 0x38
  | .histHi => 0x3C

/-- Every mapped register, in the order of R32. -/
def HostReg.all : List HostReg :=
  [.cmd, .status, .keyLo, .keyHi, .frame, .ksLen, .cap, .r1State, .r2State, .r3State,
   .idx, .ksWin, .dataWin, .resWin, .histLo, .histHi]

/-- The register at an offset, none where the offset is unmapped (R32, R52). -/
def HostReg.ofOffset (off : Nat) : Option HostReg :=
  HostReg.all.find? (fun r => decide (r.offset = off))

/-- The access types of R50. -/
inductive AccessType where
  | ro | wo | rw
  deriving DecidableEq, Repr

/-- The access type of a register (R32). -/
def HostReg.access : HostReg → AccessType
  | .cmd => .wo
  | .keyLo => .rw
  | .keyHi => .rw
  | .frame => .rw
  | .idx => .rw
  | .dataWin => .rw
  | .status => .ro
  | .ksLen => .ro
  | .cap => .ro
  | .r1State => .ro
  | .r2State => .ro
  | .r3State => .ro
  | .ksWin => .ro
  | .resWin => .ro
  | .histLo => .ro
  | .histHi => .ro

/-- What a register of an idle block reads as (R33 to R44, R58). -/
def readReg (r : HostReg) (s : State) : Word :=
  match r with
  | .cmd => 0#32
  | .status => statusWord s
  | .keyLo => s.key.extractLsb' 0 32
  | .keyHi => s.key.extractLsb' 32 32
  | .frame => s.frame.setWidth 32
  | .ksLen => (BitVec.ofNat 24 s.ksLen).setWidth 32
  | .cap => s.cap.setWidth 32
  | .r1State => s.bank.r1.setWidth 32
  | .r2State => s.bank.r2.setWidth 32
  | .r3State => s.bank.r3.setWidth 32
  | .idx => s.idx.setWidth 32
  | .ksWin => windowWord s.idx s.ksLen s.ks
  | .dataWin => windowWord s.idx s.ksCap s.data
  | .resWin => windowWord s.idx s.ksCap s.result
  | .histLo => (histWindow s).extractLsb' 0 32
  | .histHi => (histWindow s).extractLsb' 32 32

/-- What a write of `v` to a register of an idle block does; reserved bits of `v` are dropped and
a write to a read-only register has no effect (R50, R51, R59). -/
def writeReg (r : HostReg) (v : Word) (s : State) : State :=
  match r with
  | .cmd => s.issue v
  | .keyLo => s.setKey (s.key.extractLsb' 32 32 ++ v)
  | .keyHi => s.setKey (v ++ s.key.extractLsb' 0 32)
  | .frame => s.setFrame (v.extractLsb' 0 22)
  | .idx => s.setIdx (v.extractLsb' 0 24)
  | .dataWin => s.setData (windowWrite s.idx s.ksCap v s.data)
  | .status => s
  | .ksLen => s
  | .cap => s
  | .r1State => s
  | .r2State => s
  | .r3State => s
  | .ksWin => s
  | .resWin => s
  | .histLo => s
  | .histHi => s

end Sys2Proof.Machine
end

