-- ==== Sys2Proof/Machine/LfsrBank.lean ====
section
/-! DEFINITION. three_lfsr_bank: HOLD, CLEAR and LOAD, and the bank's output ports
(spec/40_lfsr_bank.md). -/

namespace Sys2Proof.Machine

/-- CLEAR's contents: all three registers zero (R89). -/
def Bank.zero : Bank := { r1 := 0#19, r2 := 0#22, r3 := 0#23 }

/-- LOAD(b): every register clocks, b injected into every feedback (R90). -/
def Bank.load (din : Bool) (b : Bank) : Bank :=
  { r1 := clock Config.reg1 b.r1 din
    r2 := clock Config.reg2 b.r2 din
    r3 := clock Config.reg3 b.r3 din }

/-- Loading steps, one for each bit of the list, first bit first (R93, R94). -/
def Bank.loadAll (bits : List Bool) (b : Bank) : Bank := bits.foldl (fun b x => b.load x) b

/-- The port CB: `{clockbit_3, clockbit_2, clockbit_1}` (R82, R92). -/
def Bank.cb (b : Bank) : BitVec 3 :=
  BitVec.ofBool (clockBit Config.reg3 b.r3) ++ BitVec.ofBool (clockBit Config.reg2 b.r2) ++
    BitVec.ofBool (clockBit Config.reg1 b.r1)

/-- The port KS_BIT: the exclusive-or of the three output bits of the current contents (R92,
R106). -/
def Bank.ksBit (b : Bank) : Bool :=
  outBit Config.reg1 b.r1 ^^ outBit Config.reg2 b.r2 ^^ outBit Config.reg3 b.r3

/-- The ports STATE1, STATE2, STATE3 as the source's `get_state()`: the three bit strings (R88,
R92). -/
def Bank.getState (b : Bank) : List Bool × List Bool × List Bool :=
  (bitstring b.r1, bitstring b.r2, bitstring b.r3)

/-- HOLD: no register changes (R91). -/
def execHold (s : State) : Host.Outcome State Fault Refusal := .next s

/-- CLEAR: all three registers to zero (R89). -/
def execClear (s : State) : Host.Outcome State Fault Refusal := .next (s.setBank Bank.zero)

/-- LOAD(b): one unconditional clock of all three registers (R90). -/
def execLoad (din : Bool) (s : State) : Host.Outcome State Fault Refusal :=
  .next (s.setBank (s.bank.load din))

end Sys2Proof.Machine
end

