-- ==== Sys2Proof/Machine/MajorityClock.lean ====
section
/-! DEFINITION. majority_clock_controller and MSTEP (spec/41_majority_clock.md). -/

namespace Sys2Proof.Machine

/-- The port MAJ of the controller: 1 when at least two bits of C are 1 (R102, R103). -/
def majority (c : BitVec 3) : Bool :=
  (c.getLsbD 0 && c.getLsbD 1) || (c.getLsbD 0 && c.getLsbD 2) || (c.getLsbD 1 && c.getLsbD 2)

/-- The port EN of the controller: bit i - 1 is 1 when Ri advances (R102, R104). -/
def enables (c : BitVec 3) : BitVec 3 := bitsOf 3 (fun i => !(c.getLsbD i ^^ majority c))

/-- How many registers a majority step advances (R107). -/
def advancing (c : BitVec 3) : Nat :=
  ((List.range 3).filter (fun i => (enables c).getLsbD i)).length

/-- MSTEP on the bank: the enables come from the contents before the step, and each enabled
register clocks (R104, R105). Its output bit is `ksBit` of the bank it answers (R106). -/
def Bank.mstep (b : Bank) : Bank :=
  let en := enables b.cb
  { r1 := if en.getLsbD 0 then clock Config.reg1 b.r1 false else b.r1
    r2 := if en.getLsbD 1 then clock Config.reg2 b.r2 false else b.r2
    r3 := if en.getLsbD 2 then clock Config.reg3 b.r3 false else b.r3 }

/-- n majority steps. -/
def Bank.msteps : Nat → Bank → Bank
  | 0, b => b
  | n + 1, b => Bank.msteps n b.mstep

/-- The loading protocol `initialize_key(key, fe, frame)`: CLEAR, the key bits, the frame bits if
a frame is supplied, and the warm-up, whose output bits are discarded (R93 to R96). -/
def initializeKey (key : List Bool) (fe : Bool) (frame : List Bool) : Bank :=
  let keyed := Bank.loadAll key Bank.zero
  let framed := if fe then Bank.loadAll frame keyed else keyed
  Bank.msteps Config.warmup framed

/-- MSTEP as a bank operation: the bank takes one majority step, and its output bit stands on the
port KS_BIT afterwards (R105, R106). It emits no trace event and touches no generator state. -/
def execMstep (s : State) : Host.Outcome State Fault Refusal := .next (s.setBank s.bank.mstep)

end Sys2Proof.Machine
end

