-- ==== Sys2Proof/Machine/Generator.lean ====
section
/-! DEFINITION. a5_1_keystream_generator: INIT, GEN, ENCDEC and the illegal command
(spec/42_keystream_generator.md). -/

namespace Sys2Proof.Machine

/-- One step of GEN's body: snapshot, MSTEP, trace event, output bit after the step (R114). -/
def genStep (s : State) : State := s.recordStep s.bank.mstep s.bank.mstep.ksBit

/-- n steps of GEN's body (R114). -/
def genSteps : Nat → State → State
  | 0, s => s
  | n + 1, s => genSteps n (genStep s)

/-- GEN_BODY(n): the buffer and the history restart, and the registers go on from where they
stand (R114, R115). -/
def genBody (n : Nat) (s : State) : State := genSteps n s.clearBuffers

/-- The body of ENCDEC(n): regenerate if n exceeds the buffer, then write all of RESULT (R118 to
R120). -/
def encdecBody (n : Nat) (s : State) : State :=
  let t := if s.ksLen < n then genBody n s else s
  t.setResult (maskedResult n t.ksCap t.data t.ks)

/-- The body of INIT(fe) (R113). -/
def initBody (fe : Bool) (s : State) : State :=
  ((s.setBank (initializeKey (keyBitsOf s) fe (frameBitsOf s))).clearBuffers).setInitDone

/-- INIT(fe): it cannot fail once decoded (R113). -/
def execInit (fe : Bool) (s : State) : Host.Outcome State Fault Refusal :=
  .next (succeed (initBody fe s))

/-- GEN(n) (R114). -/
def execGen (n : Nat) (s : State) : Host.Outcome State Fault Refusal :=
  .next (checkedCommand n (genBody n) s)

/-- ENCDEC(n) (R118). -/
def execEncdec (n : Nat) (s : State) : Host.Outcome State Fault Refusal :=
  .next (checkedCommand n (encdecBody n) s)

/-- ILLEGAL: a word the decoder refuses raises ILLEGAL_CMD (R123). -/
def performIllegal (s : State) : State := raiseErr .illegalCmd s

end Sys2Proof.Machine
end

