-- ==== Sys2Proof/Machine/Dispatch.lean ====
section
/-! DEFINITION. One arm per instruction: each is one call of its meaning. -/

namespace Sys2Proof.Machine

def exec (i : Instr) (s : State) : Host.Outcome State Fault Refusal :=
  match i with
  | .init fe => Sys2Proof.Machine.execInit fe s
  | .gen n => Sys2Proof.Machine.execGen n s
  | .encdec n => Sys2Proof.Machine.execEncdec n s
  | .hold => Sys2Proof.Machine.execHold s
  | .clear => Sys2Proof.Machine.execClear s
  | .load din => Sys2Proof.Machine.execLoad din s
  | .mstep => Sys2Proof.Machine.execMstep s

end Sys2Proof.Machine
end

