-- ==== Sys2Proof/Machine/Sequencer.lean ====
section
/-! DEFINITION. The generator's sequencer (R80, R92, R162): the bank operations that a command
drives, one per bank cycle, the bank cycle itself, and the informative cycle counts of R160. -/

namespace Sys2Proof.Machine

/-- The bank operations that the instruction, performed without error from `s`, drives on the
internal port, first cycle first (R93, R114, R118). A bank operation drives itself. -/
def bankSequence (s : State) (i : Instr) : List Instr :=
  match i with
  | .init fe =>
    [.clear] ++ (keyBitsOf s).map .load ++ (if fe then (frameBitsOf s).map .load else []) ++
      List.replicate Config.warmup .mstep
  | .gen n => List.replicate n .mstep
  | .encdec n => if s.ksLen < n then List.replicate n .mstep else []
  | .hold => [.hold]
  | .clear => [.clear]
  | .load din => [.load din]
  | .mstep => [.mstep]

/-- The port word of a bank operation (R81); a command has none. -/
def portWordOf (i : Instr) : Option PortWord :=
  match encode i with
  | .bank3 w => some w
  | .cmd32 _ => none

/-- The port words of an instruction, one for each bank cycle (R80, R92). -/
def portSequence (s : State) (i : Instr) : List PortWord := (bankSequence s i).filterMap portWordOf

/-- The port's idle value, HOLD (R91). -/
def idlePortWord : PortWord := packPort false 0b00#2

/-- The command word of `init` (R71). -/
def initWord : Word := packCmd 0#24 0x01#8

/-- The command in flight that the sequencer works on: BUSY = 1, and PEND decodes to a command whose
checks pass. An ILLEGAL or failing command moves no register (R133). -/
def activeCommand (s : State) : Option Instr :=
  if s.busy then
    match s.pend with
    | none => none
    | some w =>
      match decodeCmd w with
      | .error _ => none
      | .ok i =>
        match commandError i s with
        | none => some i
        | some _ => none
  else none

/-- The bank cycles of the command in flight: as far as they have come, or all of them. -/
def cyclesOf (i : Instr) (s : State) : BankCycles :=
  match s.cycles with
  | some c => c
  | none => { start := s.bank, left := portSequence s i }

/-- One bank cycle: the next port word of the command in flight is decoded and its bank operation
performed (R15, R80, R81, R92); with no command in flight, or nothing of it left, the port carries
HOLD (R91, log 9). -/
def bankCycleTurn (s : State) : Host.Outcome State Fault Refusal :=
  match activeCommand s with
  | none => exec (decodePort idlePortWord) s
  | some i =>
    match (cyclesOf i s).left with
    | [] => exec (decodePort idlePortWord) s
    | w :: rest =>
      exec (decodePort w) (s.setCycles (some { start := (cyclesOf i s).start, left := rest }))

/-- The bank at which the command in flight began: the present one unless the sequencer has begun
its bank cycles. -/
def startBank (s : State) : Bank :=
  match s.cycles with
  | none => s.bank
  | some c =>
    match activeCommand s with
    | none => s.bank
    | some _ => c.start

/-- The state from which the Engine's atomic step performs the command (R19, R112). -/
def commandStart (s : State) : State := (s.setBank (startBank s)).setCycles none

/-- The bank after one port word (R81); it is what `exec` of the word's operation does to the bank. -/
def Bank.drive (w : PortWord) (b : Bank) : Bank :=
  match decodePort w with
  | .clear => Bank.zero
  | .load din => b.load din
  | .mstep => b.mstep
  | .hold => b
  | .init _ => b
  | .gen _ => b
  | .encdec _ => b

/-- The bank after the port words, first word first. -/
def Bank.driveAll (ws : List PortWord) (b : Bank) : Bank := ws.foldl (fun b w => b.drive w) b

/-- The reference bank cycles of a command that succeeds, informative, without the overhead LAT
(R160). It has no argument for KEY, FRAME, DATA or the registers, which is R161. -/
def referenceCycles (i : Instr) (ksLen cap : Nat) : Nat :=
  match i with
  | .init fe => 1 + 64 + (if fe then 22 else 0) + 100
  | .gen n => n
  | .encdec n => (if ksLen < n then n else 0) + (cap + 31) / 32
  | .hold => 1
  | .clear => 1
  | .load _ => 1
  | .mstep => 1

/-- The OPEN implementation overhead of a command (R7, R160): no rule reads it. -/
def overheadCycles (i : Instr) : Nat :=
  match i with
  | .init _ => Config.latInit
  | .gen n => Config.latGen n
  | .encdec n => Config.latEncdec n
  | .hold => 0
  | .clear => 0
  | .load _ => 0
  | .mstep => 0

end Sys2Proof.Machine
end

