-- ==== Sys2Proof/Machine/Engine.lean ====
section
/-! DEFINITION. What stands around `exec`: the Engine's step (R112), and reset (R147, R148). -/

namespace Sys2Proof.Machine

/-- The end of the Engine's step: PEND ← none, BUSY ← 0, whatever the command did (R112). -/
def retireAfter (r : Host.Outcome State Fault Refusal) : Host.Outcome State Fault Refusal :=
  match r with
  | .next t => .next t.retire
  | .fault f => .fault f
  | .refused q => .refused q

/-- The command word `w` performed: decoded, executed or illegal, then retired (R112, R123). -/
def performCommand (w : Word) (s : State) : Host.Outcome State Fault Refusal :=
  match decodeCmd w with
  | .ok i => retireAfter (exec i s)
  | .error _ => .next (performIllegal s).retire

/-- The Engine's turn: it has a step only when BUSY = 1 (R112); otherwise the turn passes (log 3).
The step is atomic: it performs the whole command from the bank at which it began, however many of
its bank cycles the sequencer has already driven (R19, log 9). BUSY = 1 with nothing pending is ruled out by R30's invariant (log 8). -/
def engineTurn (s : State) : Host.Outcome State Fault Refusal :=
  if s.busy then
    match s.pend with
    | some w => performCommand w (commandStart s)
    | none => .fault .noPendingCommand
  else .next s

/-- The trace events that the Engine's step would emit from `s` (R148). -/
def pendingEvents (s : State) : List TraceEvent :=
  match engineTurn s with
  | .next t => t.trace.drop s.trace.length
  | .fault _ => []
  | .refused _ => []

/-- Reset: every piece of the block's state takes its R45 value, KS_CAP stays (R147). The first
`emitted` events of an aborted command may have left the trace port (R148, log 10). What belongs
to the agents around the block stays (log 11). -/
def resetTurn (emitted : Nat) (s : State) : State :=
  { State.resetWith s.cap with
    trace := (pendingEvents s).take emitted
    sched := s.sched
    prog := s.prog
    reads := s.reads
    draws := s.draws }

end Sys2Proof.Machine
end

