-- ==== Sys2Proof/Machine/HostPort.lean ====
section
/-! DEFINITION. The Host's accesses: MemRead, MemWrite and which of them are admitted
(spec/20_memory.md). -/

namespace Sys2Proof.Machine

/-- The offset in the window of a platform address, none where the block does not decode it (R46,
R52, log 12). -/
def offsetOfAddress (addr : Nat) : Option Nat :=
  if Config.base ≤ addr ∧ addr < Config.base + 256 then some (addr - Config.base) else none

/-- MemRead(off, 4) on an admitted offset: the value, and the state with the free values it drew
counted (R58). -/
def memRead (off : Nat) (s : State) : Word × State :=
  match HostReg.ofOffset off with
  | none => (0#32, s)
  | some r =>
    if s.busy then
      match r with
      | .status => (busyStatusWord (Config.freeDraw s.draws), s.countDraw)
      | .cap => (readReg .cap s, s)
      | _ => (Config.freeDraw s.draws, s.countDraw)
    else (readReg r s, s)

/-- MemWrite(off, 4, v) on an admitted offset (R59): ignored while BUSY = 1 (R55), and where the
offset is unmapped (R52). -/
def memWrite (off : Nat) (v : Word) (s : State) : State :=
  if s.busy then s
  else
    match HostReg.ofOffset off with
    | none => s
    | some r => writeReg r v s

/-- An access is admitted if it is an aligned 32-bit access of the window (R53). -/
def admitted (off size : Nat) : Bool := decide (off < 0x100) && decide (size = 4) && decide (off % 4 = 0)

/-- A host access: performed if admitted; beyond the window it is the platform's (R52, R68, log 7);
inside it and not an aligned 32-bit access, the Host is stuck (R53, log 6). -/
def hostAccess (off size : Nat) (after : State) : Host.Outcome State Fault Refusal :=
  if admitted off size then .next after
  else if 0x100 ≤ off then .refused (.outsideWindow off)
  else .fault (.stuckAccess off size)

/-- A host read, its value logged for the Host under its name. -/
def readAndLog (off : Nat) (name : Option String) (s : State) : State :=
  (memRead off s).2.logRead { off := off, name := name, value := (memRead off s).1 }

/-- The Host's turn: its next operation in program order (R60); with none left the turn passes
(log 3). A poll reads STATUS once and stays until the bit BUSY has read 0 (R79, log 19). -/
def hostTurn (s : State) : Host.Outcome State Fault Refusal :=
  match s.prog with
  | [] => .next s
  | .read off size name :: rest => hostAccess off size ((readAndLog off name s).setProg rest)
  | .write off size v :: rest => hostAccess off size ((memWrite off v s).setProg rest)
  | .poll :: rest =>
    if (memRead HostReg.status.offset s).1.getLsbD 0 then
      .next (readAndLog HostReg.status.offset none s)
    else .next ((readAndLog HostReg.status.offset none s).setProg rest)

/-- One turn of one agent. -/
def takeTurn (t : Turn) (s : State) : Host.Outcome State Fault Refusal :=
  match t with
  | .host => hostTurn s
  | .engine => engineTurn s
  | .reset emitted => .next (resetTurn emitted s)
  | .bankCycle => bankCycleTurn s

/-- Who moves when the schedule is used up: the Engine if BUSY = 1, which is its weak fairness
(R62), and the Host otherwise (log 2). -/
def defaultTurn (s : State) : Turn := if s.busy then .engine else .host

/-- The next turn: the schedule's head, taken off it, or the default turn. -/
def nextTurn (s : State) : Host.Outcome State Fault Refusal :=
  match s.sched with
  | [] => takeTurn (defaultTurn s) s
  | t :: rest => takeTurn t (s.setSched rest)

/-- A command word in flight with the Engine next to move: what a write to CMD leaves (R59). -/
def stageCommand (w : Word) (s : State) : State :=
  ((s.issue w).setCycles none).setSched (.engine :: s.sched)

/-- A bank cycle of an INIT in flight with `w` the word the sequencer drives next (R80, R92): the
bank operations run in no other place than a command (R15). -/
def stagePort (w : PortWord) (s : State) : State :=
  ((s.issue initWord).setCycles (some { start := s.bank, left := [w] })).setSched
    (.bankCycle :: s.sched)

end Sys2Proof.Machine
end

