-- ==== Sys2Proof/Machine/Step.lean ====
section
/-! DEFINITION. One step of the machine, and how an instruction word is placed where the next step
takes it from. -/

namespace Sys2Proof.Machine

/-- One step: one turn of one agent. -/
def step (s : State) : Host.Outcome State Fault Refusal := nextTurn s

/-- The word `w` of a row of the opcode table placed so that the very next step runs it: a command
word in PEND with the Engine next to move, or a port word in the next bank cycle of a command in
flight (log 16, log 17). -/
def State.withFetchWord (s : State) (nbits w : Nat) : State :=
  if 32 ≤ nbits then stageCommand (BitVec.ofNat 32 w) s else stagePort (BitVec.ofNat 3 w) s

end Sys2Proof.Machine
end

