-- ==== Sys2Proof/Machine/Assembler.lean ====
section
/-! DEFINITION. The assembler lines of R77 to R79 as terms, and the host operations each stands
for. The spelling of numbers and strings as text is not modelled (log 18). -/

namespace Sys2Proof.Machine

/-- A command line: the four of R77 and the two pseudo-instructions `enc` and `dec` of R79. -/
inductive AsmCommand where
  | init
  | initF
  | gen (n : Nat)
  | encdec (n : Nat)
  | enc (n : Nat)
  | dec (n : Nat)
  deriving DecidableEq, Repr

/-- OFF of `wr` and `rd`: a number or a register name (R78). -/
inductive AsmOffset where
  | number (off : Nat)
  | register (r : HostReg)
  deriving DecidableEq, Repr

/-- One assembler line (R77 to R79). Strings of 0 and 1 are lists of bits, leftmost first (R10). -/
inductive AsmLine where
  | command (c : AsmCommand)
  | wr (off : AsmOffset) (val : Nat)
  | rd (off : AsmOffset) (name : Option String)
  | setkey (k : List Bool)
  | setframe (f : List Bool)
  | setidx (i : Nat)
  | wrdata (d : List Bool)
  | poll
  | run (c : AsmCommand)
  deriving DecidableEq, Repr

/-- Why a line is no program text (R77, R79). -/
inductive AsmError where
  /-- n is not in 0 to 16777215 (R77). -/
  | lengthOutOfRange (n : Nat)
  /-- VAL is not a 32-bit number (R78). -/
  | valueTooWide (val : Nat)
  /-- K has not 64 characters (R79). -/
  | keyLength (len : Nat)
  /-- F has not 22 characters (R79). -/
  | frameLength (len : Nat)
  /-- D is longer than KS_CAP (R79). -/
  | dataTooLong (len : Nat)
  deriving DecidableEq, Repr

/-- The instruction a command line stands for; `enc` and `dec` are `encdec` (R79). -/
def AsmCommand.instr : AsmCommand → Instr
  | .init => .init false
  | .initF => .init true
  | .gen n => .gen n
  | .encdec n => .encdec n
  | .enc n => .encdec n
  | .dec n => .encdec n

/-- The length written in a command line, 0 where it has none. -/
def AsmCommand.length : AsmCommand → Nat
  | .init => 0
  | .initF => 0
  | .gen n => n
  | .encdec n => n
  | .enc n => n
  | .dec n => n

/-- `MemWrite(OFF, 4, v)` to a register of the map. -/
def writeOp (r : HostReg) (v : Word) : HostOp := .write r.offset 4 v

/-- A command line as the host write it stands for (R77). -/
def AsmCommand.assemble (c : AsmCommand) : Except AsmError (List HostOp) :=
  if c.instr.wf then
    match encode c.instr with
    | .cmd32 w => .ok [writeOp .cmd w]
    | .bank3 _ => .ok []
  else .error (.lengthOutOfRange c.length)

/-- The number of an offset. -/
def AsmOffset.value : AsmOffset → Nat
  | .number off => off
  | .register r => r.offset

/-- The word Σ_{b<32} D[at + b]·2^b of a bit string, 0 beyond its end (R79). -/
def stringWord (d : List Bool) (first : Nat) : Word := bitsOf 32 (fun b => bufferBit d (first + b))

/-- A `wr` of a number that must fit 32 bits (R78). -/
def assembleWrite (off val : Nat) : Except AsmError (List HostOp) :=
  if val < 2 ^ 32 then .ok [.write off 4 (BitVec.ofNat 32 val)] else .error (.valueTooWide val)

/-- The host operations of a line, for a block whose capacity is `cap` (R77 to R79). -/
def AsmLine.assemble (cap : Nat) (l : AsmLine) : Except AsmError (List HostOp) :=
  match l with
  | .command c => c.assemble
  | .wr off val => assembleWrite off.value val
  | .rd off name => .ok [.read off.value 4 name]
  | .setkey k =>
    if k.length = 64 then .ok [writeOp .keyLo (stringWord k 0), writeOp .keyHi (stringWord k 32)]
    else .error (.keyLength k.length)
  | .setframe f =>
    if f.length = 22 then .ok [writeOp .frame (stringWord f 0)] else .error (.frameLength f.length)
  | .setidx i => assembleWrite HostReg.idx.offset i
  | .wrdata d =>
    if d.length ≤ cap then
      .ok ((List.range ((d.length + 31) / 32)).flatMap (fun w =>
        [writeOp .idx (BitVec.ofNat 32 w), writeOp .dataWin (stringWord d (32 * w))]))
    else .error (.dataTooLong d.length)
  | .poll => .ok [.poll]
  | .run c =>
    match c.assemble with
    | .ok ops => .ok (ops ++ [.poll])
    | .error e => .error e

/-- A whole program: the lines' operations in order, or the first line's error. -/
def assembleProgram (cap : Nat) : List AsmLine → Except AsmError (List HostOp)
  | [] => .ok []
  | l :: rest =>
    match l.assemble cap with
    | .error e => .error e
    | .ok ops =>
      match assembleProgram cap rest with
      | .ok more => .ok (ops ++ more)
      | .error e => .error e

end Sys2Proof.Machine
end

