-- ==== Sys2Proof/Safety.lean ====
section
/-! DEFINITION. What claims are stated in: the invariants of the block, whose turn it is, when a
run has ended, and the premises a run is launched under (R127, R128). -/

namespace Sys2Proof.Machine

/-- The invariants the spec gives the block's state at every state boundary. -/
structure Inv (s : State) : Prop where
  /-- 1 ≤ KS_CAP (R6). -/
  capPositive : 1 ≤ s.ksCap
  /-- BUSY = 1 exactly when PEND ≠ none (R30). -/
  busyIffPending : s.busy = true ↔ s.pend ≠ none
  /-- KS_LEN ≤ KS_CAP (R21). -/
  keystreamFits : s.ksLen ≤ s.ksCap
  /-- len(hist) = KS_LEN (R22). -/
  historyLength : s.hist.length = s.ksLen
  /-- DATA has KS_CAP bits (R26). -/
  dataLength : s.data.length = s.ksCap
  /-- RESULT has KS_CAP bits (R27). -/
  resultLength : s.result.length = s.ksCap
  /-- ERR is one of the produced codes (R146). -/
  errProduced : s.err.toNat ≤ 3
  /-- Before the first INIT there is no keystream (R20, R45, R114). -/
  uninitialisedEmpty : s.initDone = false → s.ks = []
  /-- Bank cycles that have begun are those of the command in flight, and the bank is where the
  words driven so far take it (R15, R19, R92). -/
  cyclesOfCommand : ∀ c, s.cycles = some c → ∃ i done, activeCommand s = some i ∧
    portSequence s i = done ++ c.left ∧ s.bank = c.start.driveAll done

/-- The history belongs to the keystream: bit k is the output of the step from snapshot k, and
snapshot k + 1 is the one after that step (R106, R122). -/
structure HistoryConsistent (s : State) : Prop where
  sameLength : s.hist.length = s.ksLen
  outputOfStep : ∀ k, k < s.ksLen →
    bufferBit s.ks k = (Bank.ofSnap (s.hist.getD k 0#64)).mstep.ksBit
  nextSnapshot : ∀ k, k + 1 < s.ksLen →
    s.hist.getD (k + 1) 0#64 = (Bank.ofSnap (s.hist.getD k 0#64)).mstep.snap

/-- Whose turn the next step is: the schedule's head, or the default turn (log 2). -/
def currentTurn (s : State) : Turn :=
  match s.sched with
  | [] => defaultTurn s
  | t :: _ => t

/-- The schedule after the next step. -/
def schedAfter (s : State) : List Turn := s.sched.tail

/-- Is the turn a reset? -/
def Turn.isReset : Turn → Bool
  | .reset _ => true
  | .host => false
  | .engine => false
  | .bankCycle => false

/-- An outcome carried on: from a next state `f` goes on, a stop stays. -/
def andThen (r : Host.Outcome State Fault Refusal) (f : State → Host.Outcome State Fault Refusal) :
    Host.Outcome State Fault Refusal :=
  match r with
  | .next t => f t
  | .fault q => .fault q
  | .refused q => .refused q

/-- `k` steps, stopping at the first fault or refusal. -/
def runFor : Nat → State → Host.Outcome State Fault Refusal
  | 0, s => .next s
  | k + 1, s => andThen (step s) (runFor k)

/-- A run has ended: the Host has no further operation and BUSY = 0 (R127). -/
def runEnded (s : State) : Bool := s.prog.isEmpty && !s.busy

/-- The operation is one the Host is not stuck at and that stays inside the window (R53). -/
def HostOp.isAdmitted : HostOp → Bool
  | .read off size _ => admitted off size
  | .write off size _ => admitted off size
  | .poll => true

/-- The operation issues a command when it is performed with BUSY = 0 (R59). -/
def HostOp.isCommandWrite : HostOp → Bool
  | .write off size _ => decide (off = HostReg.cmd.offset) && decide (size = 4)
  | .read _ _ _ => false
  | .poll => false

/-- The program writes CMD only where it may: `mayIssue` says that BUSY has been polled to 0 since
the last CMD write (R128, R152). -/
def disciplined (mayIssue : Bool) : List HostOp → Bool
  | [] => true
  | .poll :: rest => disciplined true rest
  | .read _ _ _ :: rest => disciplined mayIssue rest
  | .write off size v :: rest =>
    if HostOp.isCommandWrite (.write off size v) then mayIssue && disciplined false rest
    else disciplined mayIssue rest

/-- The rest of the host program keeps the command issue rule of R152 from this state on. -/
def issueDiscipline (s : State) : Bool := disciplined (!s.busy) s.prog

/-- The launch premises of R128: an idle block with R30's invariant, every access admitted, and
the command issue rule kept. KS_CAP is the state's, and there is one Host by construction. -/
def launchPremises (s : State) : Bool :=
  !s.busy && s.pend.isNone && s.cycles.isNone && s.prog.all HostOp.isAdmitted && issueDiscipline s

/-- The instruction is a host command (R70). -/
def isCommand : Instr → Bool
  | .init _ => true
  | .gen _ => true
  | .encdec _ => true
  | .hold => false
  | .clear => false
  | .load _ => false
  | .mstep => false

end Sys2Proof.Machine
end

