-- ==== Sys2Proof/Certificates/Slice0/Obligations.lean ====
section
/-! DEFINITION. The statements for the provers, from the numbered rules of spec/. In every
statement, a result written as an equation with `{ s with … }` is also the frame: every field of
the state that is not named there is unchanged. -/

open Sys2Proof Sys2Proof.Machine

/-! ### Reset and the invariants -/

/-- R45: the block's state after reset. CAP holds the configuration value, of which R6 gives the
range alone. -/
def Obligations.ResetHoldsSpecValues : Prop :=
  State.reset.bank = { r1 := 0#19, r2 := 0#22, r3 := 0#23 } ∧ State.reset.initDone = false ∧
  State.reset.ks = [] ∧ State.reset.hist = [] ∧ State.reset.key = 0#64 ∧
  State.reset.frame = 0#22 ∧
  State.reset.data = List.replicate State.reset.cap.toNat false ∧
  State.reset.result = List.replicate State.reset.cap.toNat false ∧ State.reset.idx = 0#24 ∧
  State.reset.err = 0#4 ∧ State.reset.busy = false ∧ State.reset.pend = none ∧
  State.reset.trace = [] ∧ State.reset.cap = Config.ksCap ∧
  1 ≤ State.reset.cap.toNat ∧ State.reset.cap.toNat ≤ 16777215

/-- The invariants hold after reset, the command issue rule of R152 among them. -/
def Obligations.ResetMeetsInvariants : Prop :=
  Inv State.reset ∧ HistoryConsistent State.reset ∧ issueDiscipline State.reset = true ∧
  launchPremises State.reset = true

/-- Every step of every agent keeps the block's invariants (R6, R21, R22, R30, R146), and what the
sequencer has driven of a command stays a beginning of that command's own bank cycles (R15, R92; that
bank cycles are turns of their own is log 9). -/
def Obligations.EveryStepKeepsInvariant : Prop :=
  ∀ s t : State, Inv s → step s = .next t → Inv t

/-- Every step keeps the history and the keystream belonging together: the output bit of each step
and the snapshot after it (R106, R121, R122). -/
def Obligations.EveryStepKeepsHistoryConsistent : Prop :=
  ∀ s t : State, HistoryConsistent s → step s = .next t → HistoryConsistent t

/-- A host program that keeps the command issue rule keeps it over every step, and none of its CMD
writes is lost: at the moment of such a write BUSY is 0 (R55, R152). -/
def Obligations.PolledCommandWritesAreNeverLost : Prop :=
  (∀ s t : State, issueDiscipline s = true → step s = .next t → issueDiscipline t = true) ∧
  ∀ (s : State) (op : HostOp) (rest : List HostOp), issueDiscipline s = true →
    s.prog = op :: rest → op.isCommandWrite = true → s.busy = false

/-! ### Encodings -/

/-- Decoding the encoding of a well-formed instruction gives it back, every operand at every value
its field admits (R69 to R72, R80, R81). -/
def Obligations.DecodeEncodeRoundTrip : Prop :=
  ∀ i : Instr, i.wf = true → decode (encode i) = .ok i

/-- R75: which word decodes to which command, over all 2^32 words, and which words are ILLEGAL. -/
def Obligations.CommandDecoderIsExact : Prop :=
  ∀ w : Word,
    (∀ fe : Bool, decodeCmd w = .ok (.init fe) ↔
      w.extractLsb 7 0 = 0x01#8 ∧ w.extractLsb 31 9 = 0#23 ∧ w.getLsbD 8 = fe) ∧
    (∀ n : Nat, decodeCmd w = .ok (.gen n) ↔
      w.extractLsb 7 0 = 0x02#8 ∧ n = (w.extractLsb 31 8).toNat) ∧
    (∀ n : Nat, decodeCmd w = .ok (.encdec n) ↔
      w.extractLsb 7 0 = 0x03#8 ∧ n = (w.extractLsb 31 8).toNat) ∧
    ((∃ e, decodeCmd w = .error e) ↔
      ¬ (w.extractLsb 7 0 = 0x01#8 ∧ w.extractLsb 31 9 = 0#23) ∧
      w.extractLsb 7 0 ≠ 0x02#8 ∧ w.extractLsb 7 0 ≠ 0x03#8) ∧
    decodeCmd 0x00000A02#32 = .ok (.gen 10) ∧ (∃ e, decodeCmd 0x00000201#32 = .error e) ∧
    (∃ e, decodeCmd 0#32 = .error e)

/-- R81: all eight words of the bank port, DIN read by LOAD alone. -/
def Obligations.PortDecoderIsExact : Prop :=
  decodePort 0b000#3 = .hold ∧ decodePort 0b100#3 = .hold ∧
  decodePort 0b001#3 = .clear ∧ decodePort 0b101#3 = .clear ∧
  decodePort 0b010#3 = .load false ∧ decodePort 0b110#3 = .load true ∧
  decodePort 0b011#3 = .mstep ∧ decodePort 0b111#3 = .mstep

/-- R84: the worked encodings: what each line assembles to (a host write of the word to CMD) and
what each word decodes to, the two ILLEGAL words by name. -/
def Obligations.WorkedEncodingsDecode : Prop :=
  AsmCommand.init.assemble = .ok [.write 0 4 0x00000001#32] ∧
  AsmCommand.initF.assemble = .ok [.write 0 4 0x00000101#32] ∧
  (AsmCommand.gen 10).assemble = .ok [.write 0 4 0x00000A02#32] ∧
  (AsmCommand.gen 0).assemble = .ok [.write 0 4 0x00000002#32] ∧
  (AsmCommand.gen 228).assemble = .ok [.write 0 4 0x0000E402#32] ∧
  (AsmCommand.encdec 4).assemble = .ok [.write 0 4 0x00000403#32] ∧
  (AsmCommand.encdec 16777215).assemble = .ok [.write 0 4 0xFFFFFF03#32] ∧
  decodeCmd 0x00000001#32 = .ok (.init false) ∧ decodeCmd 0x00000101#32 = .ok (.init true) ∧
  decodeCmd 0x00000A02#32 = .ok (.gen 10) ∧ decodeCmd 0x00000002#32 = .ok (.gen 0) ∧
  decodeCmd 0x0000E402#32 = .ok (.gen 228) ∧ decodeCmd 0x00000403#32 = .ok (.encdec 4) ∧
  decodeCmd 0xFFFFFF03#32 = .ok (.encdec 16777215) ∧
  decodeCmd 0x00000201#32 = .error (.reservedInitBits 1#23) ∧
  decodeCmd 0x00000004#32 = .error (.reservedOp 4#8) ∧
  decodePort 0b110#3 = .load true ∧ decodePort 0b011#3 = .mstep

/-- A command is four byte lanes, lane 0 first, and no more: the decoder over bytes reads the word
and leaves the rest (R48, R76). -/
def Obligations.ByteLanesCarryOneWord : Prop :=
  ∀ (w : Word) (rest : List Byte) (i : Instr),
    decodeCmdBytes (lanesOfWord w ++ rest) = .ok (i, rest) ↔ decodeCmd w = .ok i

/-! ### A step runs the decoded instruction -/

/-- R112: the Engine's step, on the schedule's turn or as the default turn (log 2), is `exec` of the
decoded command, and then PEND is none and BUSY is 0. It starts from the bank at which the command
began: the present one, unless bank cycles of the command have been driven already (log 9). -/
def Obligations.EngineStepPerformsDecodedCommand : Prop :=
  ∀ (s : State) (w : Word) (i : Instr) (rest : List Turn),
    s.busy = true → s.pend = some w → decodeCmd w = .ok i →
    (s.sched = .engine :: rest ∨ (s.sched = [] ∧ rest = [])) →
    (s.cycles = none → startBank s = s.bank) ∧
    ∃ t, exec i { s with sched := rest, bank := startBank s, cycles := none } = .next t ∧
      step s = .next { t with pend := none, busy := false }

/-- R123: the Engine's step on a word that is ILLEGAL sets ERR to 1 and changes nothing else of the
block but PEND and BUSY, before the first INIT as after it; STATUS then is 0x10 | init_done << 1.
(`cycles`, the model's own, is none after every Engine step.) -/
def Obligations.EngineStepOnIllegalWord : Prop :=
  ∀ (s : State) (w : Word) (e : DecodeError) (rest : List Turn),
    s.busy = true → s.pend = some w → decodeCmd w = .error e →
    (s.sched = .engine :: rest ∨ (s.sched = [] ∧ rest = [])) →
    ∃ t, step s = .next t ∧
      t = { s with err := 1#4, pend := none, busy := false, sched := rest, cycles := none } ∧
      (statusWord t).toNat = 0x10 + 2 * s.initDone.toNat

/-- The Engine takes no step while BUSY = 0 (R112): its turn then passes, which is the model's
choice (log 3). -/
def Obligations.IdleEngineTurnPasses : Prop :=
  ∀ (s : State) (rest : List Turn), s.busy = false → s.sched = .engine :: rest →
    step s = .next { s with sched := rest }

/-- A bank cycle of the internal port is `exec` of the bank operation of the next port word of the
command in flight (R80, R81, R92), and of HOLD, the port's idle value, where no command is in flight
or none of its words are left (R91). That it is a turn of its own is the model's choice (log 9). -/
def Obligations.BankCycleRunsPortOperation : Prop :=
  ∀ (s : State) (rest : List Turn), s.sched = .bankCycle :: rest →
    (activeCommand s = none → step s = exec .hold { s with sched := rest }) ∧
    ∀ i : Instr, activeCommand s = some i →
      (∀ c p ps, s.cycles = some c → c.left = p :: ps →
        step s = exec (decodePort p)
          { s with sched := rest, cycles := some { start := c.start, left := ps } }) ∧
      (∀ c, s.cycles = some c → c.left = [] → step s = exec .hold { s with sched := rest }) ∧
      (∀ p ps, s.cycles = none → portSequence s i = p :: ps →
        step s = exec (decodePort p)
          { s with sched := rest, cycles := some { start := s.bank, left := ps } }) ∧
      (s.cycles = none → portSequence s i = [] → step s = exec .hold { s with sched := rest })

/-! ### The shift registers and the bank operations -/

/-- R86: the feedback is the exclusive-or of the tap bits of the table of R5. -/
def Obligations.FeedbackIsTapParity : Prop :=
  (∀ r : BitVec 19, feedback Config.reg1 r =
    (r.getLsbD 13 ^^ r.getLsbD 16 ^^ r.getLsbD 17 ^^ r.getLsbD 18)) ∧
  (∀ r : BitVec 22, feedback Config.reg2 r = (r.getLsbD 20 ^^ r.getLsbD 21)) ∧
  (∀ r : BitVec 23, feedback Config.reg3 r =
    (r.getLsbD 7 ^^ r.getLsbD 20 ^^ r.getLsbD 21 ^^ r.getLsbD 22))

/-- R87: one transition, at any register size and taps: position 0 gets feedback ⊕ x, every other
position the bit one place nearer the input end; as a number, the shift modulo 2^N plus the inserted
bit; zero is a fixed point of the plain clock; and the bit shifted out is a tap of every register of
R5. -/
def Obligations.ClockShiftsTowardOutputEnd : Prop :=
  (∀ c ∈ [Config.reg1, Config.reg2, Config.reg3], c.size - 1 ∈ c.taps) ∧
  clock Config.reg1 0x40000#19 false = 0x00001#19 ∧
  ∀ (n : Nat) (c : RegConfig) (r : BitVec n) (x : Bool), 0 < n →
    (clock c r x).getLsbD 0 = (feedback c r ^^ x) ∧
    (∀ j, 0 < j → j < n → (clock c r x).getLsbD j = r.getLsbD (j - 1)) ∧
    (clock c r x).toNat = 2 * r.toNat % 2 ^ n + (feedback c r ^^ x).toNat ∧
    clock c (0#n) false = 0#n

/-- R88: the clock-control and output probes, and the bit string, input end first. -/
def Obligations.ProbesReadTheirPositions : Prop :=
  clockBit Config.reg1 0x5EF70#19 = true ∧ outBit Config.reg1 0x5EF70#19 = true ∧
  ∀ b : Bank,
    clockBit Config.reg1 b.r1 = b.r1.getLsbD 8 ∧ clockBit Config.reg2 b.r2 = b.r2.getLsbD 10 ∧
    clockBit Config.reg3 b.r3 = b.r3.getLsbD 10 ∧
    outBit Config.reg1 b.r1 = b.r1.getLsbD 18 ∧ outBit Config.reg2 b.r2 = b.r2.getLsbD 21 ∧
    outBit Config.reg3 b.r3 = b.r3.getLsbD 22 ∧
    (bitstring b.r1).length = 19 ∧ (bitstring b.r2).length = 22 ∧ (bitstring b.r3).length = 23 ∧
    (∀ j, (bitstring b.r1).getD j false = b.r1.getLsbD j) ∧
    (∀ j, (bitstring b.r2).getD j false = b.r2.getLsbD j) ∧
    (∀ j, (bitstring b.r3).getD j false = b.r3.getLsbD j)

/-- R23: the packed form and the mapping form determine each other and the bank. -/
def Obligations.SnapshotFormsAgree : Prop :=
  (∀ b : Bank, Bank.ofSnap b.snap = b) ∧ (∀ w : Snapshot, (Bank.ofSnap w).snap = w) ∧
  (∀ (b : Bank) (j : Nat), j < 19 → b.snap.getLsbD j = b.r1.getLsbD j) ∧
  (∀ (b : Bank) (j : Nat), j < 22 → b.snap.getLsbD (19 + j) = b.r2.getLsbD j) ∧
  (∀ (b : Bank) (j : Nat), j < 23 → b.snap.getLsbD (41 + j) = b.r3.getLsbD j) ∧
  (∀ b : Bank, b.mapping =
    [("R1", bitstring b.r1), ("R2", bitstring b.r2), ("R3", bitstring b.r3)]) ∧
  (∀ b c : Bank, b.mapping = c.mapping ↔ b.snap = c.snap)

/-- R89: CLEAR (BOP 0b01) completes in every state with all three registers zero, and R91: HOLD (BOP
0b00) completes in every state with nothing changed; DIN is ignored by both. -/
def Obligations.ClearZeroesAndHoldKeeps : Prop :=
  (∀ din, decodePort (packPort din 0b01#2) = .clear ∧ decodePort (packPort din 0b00#2) = .hold) ∧
  ∀ s : State,
    exec .clear s = .next { s with bank := { r1 := 0#19, r2 := 0#22, r3 := 0#23 } } ∧
    exec .hold s = .next s

/-- R90: LOAD(b) (BOP 0b10, DIN = b) completes in every state, and every register shifts with b ⊕ its tap parity
inserted at the input end, all right-hand sides on the contents before the step. -/
def Obligations.LoadClocksAllRegisters : Prop :=
  ∀ (s : State) (b : Bool), decodePort (packPort b 0b10#2) = .load b ∧
    exec (.load b) s = .next { s with bank :=
      { r1 := (s.bank.r1 <<< 1) ||| (BitVec.ofBool (s.bank.r1.getLsbD 13 ^^ s.bank.r1.getLsbD 16 ^^
          s.bank.r1.getLsbD 17 ^^ s.bank.r1.getLsbD 18 ^^ b)).setWidth 19
        r2 := (s.bank.r2 <<< 1) ||| (BitVec.ofBool (s.bank.r2.getLsbD 20 ^^ s.bank.r2.getLsbD 21 ^^
          b)).setWidth 22
        r3 := (s.bank.r3 <<< 1) ||| (BitVec.ofBool (s.bank.r3.getLsbD 7 ^^ s.bank.r3.getLsbD 20 ^^
          s.bank.r3.getLsbD 21 ^^ s.bank.r3.getLsbD 22 ^^ b)).setWidth 23 } }

/-- R104, R105 and R106: MSTEP (BOP 0b11, DIN ignored) completes in every state; the clock bits are those before the step, a
register clocks exactly when its bit is the majority, and the output bit is read after the step. -/
def Obligations.MajorityStepResult : Prop :=
  (∀ din, decodePort (packPort din 0b11#2) = .mstep) ∧
  ∀ s : State, ∀ c1 c2 c3 m : Bool,
    c1 = s.bank.r1.getLsbD 8 → c2 = s.bank.r2.getLsbD 10 → c3 = s.bank.r3.getLsbD 10 →
    m = ((c1 && c2) || (c1 && c3) || (c2 && c3)) →
    ∃ b : Bank, exec .mstep s = .next { s with bank := b } ∧
      b.r1 = (if c1 = m then clock Config.reg1 s.bank.r1 false else s.bank.r1) ∧
      b.r2 = (if c2 = m then clock Config.reg2 s.bank.r2 false else s.bank.r2) ∧
      b.r3 = (if c3 = m then clock Config.reg3 s.bank.r3 false else s.bank.r3) ∧
      b.ksBit = (b.r1.getLsbD 18 ^^ b.r2.getLsbD 21 ^^ b.r3.getLsbD 22)

/-- R103 and R107: the majority is 1 exactly when at least two control bits are 1, register i
is enabled exactly when its bit equals it, and two or three registers advance, three exactly when
the bits agree. -/
def Obligations.TwoOrThreeRegistersAdvance : Prop :=
  ∀ c : BitVec 3,
    (majority c = true ↔ 2 ≤ ((List.range 3).filter (fun i => c.getLsbD i)).length) ∧
    (∀ i, i < 3 → (enables c).getLsbD i = (c.getLsbD i == majority c)) ∧
    (advancing c = 2 ∨ advancing c = 3) ∧
    (advancing c = 3 ↔ c.getLsbD 0 = c.getLsbD 1 ∧ c.getLsbD 1 = c.getLsbD 2)

/-- R108: the fixed points of MSTEP are exactly the all-zero bank and the banks with two zero
registers and a third whose clock-control bit is 1, and there every later MSTEP returns the same
output bit: 0, or the output-end bit of the nonzero register. -/
def Obligations.FixedPointsOfMajorityStep : Prop :=
  ∀ s : State,
    (exec .mstep s = .next s ↔
      (s.bank.r1 = 0#19 ∧ s.bank.r2 = 0#22 ∧ s.bank.r3 = 0#23) ∨
      (s.bank.r1 = 0#19 ∧ s.bank.r2 = 0#22 ∧ s.bank.r3.getLsbD 10 = true) ∨
      (s.bank.r1 = 0#19 ∧ s.bank.r3 = 0#23 ∧ s.bank.r2.getLsbD 10 = true) ∨
      (s.bank.r2 = 0#22 ∧ s.bank.r3 = 0#23 ∧ s.bank.r1.getLsbD 8 = true)) ∧
    (exec .mstep s = .next s → ∀ n : Nat,
      (Bank.msteps n s.bank).mstep.ksBit =
        if s.bank.r1 = 0#19 ∧ s.bank.r2 = 0#22 then s.bank.r3.getLsbD 22
        else if s.bank.r1 = 0#19 ∧ s.bank.r3 = 0#23 then s.bank.r2.getLsbD 21
        else s.bank.r1.getLsbD 18)

/-- R99, its first sentence: loading is linear over GF(2), in the loaded bits and in the bank. -/
def Obligations.LoadingIsLinear : Prop :=
  ∀ (xs ys : List Bool) (b c : Bank), xs.length = ys.length →
    Bank.loadAll (List.zipWith (fun x y => x ^^ y) xs ys)
      { r1 := b.r1 ^^^ c.r1, r2 := b.r2 ^^^ c.r2, r3 := b.r3 ^^^ c.r3 } =
    { r1 := (Bank.loadAll xs b).r1 ^^^ (Bank.loadAll ys c).r1
      r2 := (Bank.loadAll xs b).r2 ^^^ (Bank.loadAll ys c).r2
      r3 := (Bank.loadAll xs b).r3 ^^^ (Bank.loadAll ys c).r3 }

/-- R99, the rest: an all-zero key with no frame, or with an all-zero frame, leaves the bank
all-zero after INIT, and from an all-zero bank every generated bit is 0. -/
def Obligations.ZeroKeyGivesZeroKeystream : Prop :=
  (∀ (s : State) (fe : Bool), s.key = 0#64 → (fe = true → s.frame = 0#22) →
    exec (.init fe) s = .next { s with
      bank := { r1 := 0#19, r2 := 0#22, r3 := 0#23 }, ks := [], hist := [], initDone := true,
      err := 0#4 }) ∧
  (∀ (s : State) (n : Nat), s.bank = { r1 := 0#19, r2 := 0#22, r3 := 0#23 } → s.initDone = true →
    n ≤ s.cap.toNat →
    exec (.gen n) s = .next { s with
      ks := List.replicate n false, hist := List.replicate n 0#64,
      trace := s.trace ++ List.replicate n { before := 0#64, after := 0#64 }, err := 0#4 })

/-! ### INIT, GEN and ENCDEC -/

/-- R93, R94, R96 and R113: INIT completes in every state: from an all-zero bank the 64 key bits,
bit 0 first, then the 22 frame bits if FE = 1, then 100 majority steps whose outputs are discarded;
ks and hist are cleared, init_done is 1, ERR is 0, and nothing else changes. -/
def Obligations.InitLoadsKeyAndFrame : Prop :=
  decodeCmd 0x00000001#32 = .ok (.init false) ∧ decodeCmd 0x00000101#32 = .ok (.init true) ∧
  ∀ (s : State) (fe : Bool),
    exec (.init fe) s = .next { s with
      bank := Bank.mstep^[100] (List.foldl (fun b x => b.load x)
        { r1 := 0#19, r2 := 0#22, r3 := 0#23 }
        ((List.range 64).map (fun k => s.key.getLsbD k) ++
          if fe then (List.range 22).map (fun k => s.frame.getLsbD k) else []))
      ks := [], hist := [], initDone := true, err := 0#4 }

/-- R117: the keystream after INIT depends on KEY, FE and, with FE = 1, FRAME alone: from any two
states that agree on these, INIT and GEN(n) give the same keystream and history. -/
def Obligations.EqualKeysGiveEqualKeystreams : Prop :=
  ∀ (s t s1 s2 t1 t2 : State) (fe : Bool) (n : Nat),
    s.key = t.key → (fe = true → s.frame = t.frame) → n ≤ s.cap.toNat → n ≤ t.cap.toNat →
    exec (.init fe) s = .next s1 → exec (.gen n) s1 = .next s2 →
    exec (.init fe) t = .next t1 → exec (.gen n) t1 = .next t2 →
    s2.ks = t2.ks ∧ s2.ks.length = n ∧ s2.hist = t2.hist ∧ s2.bank = t2.bank

/-- R114: GEN(n) completes once initialised for every n ≤ KS_CAP: the buffer and history restart,
step j records the snapshot before it and emits the pair of snapshots around it, and bit j is the
output after it. Before the first INIT it is USAGE, and beyond KS_CAP LENGTH, with no other change. -/
def Obligations.GenGeneratesKeystream : Prop :=
  ∀ (s : State) (n : Nat),
    (s.initDone = false → exec (.gen n) s = .next { s with err := 2#4 }) ∧
    (s.initDone = true → s.cap.toNat < n → exec (.gen n) s = .next { s with err := 3#4 }) ∧
    (s.initDone = true → n ≤ s.cap.toNat → exec (.gen n) s = .next { s with
      bank := Bank.mstep^[n] s.bank
      ks := (List.range n).map (fun j => (Bank.mstep^[j + 1] s.bank).ksBit)
      hist := (List.range n).map (fun j => (Bank.mstep^[j] s.bank).snap)
      trace := s.trace ++ (List.range n).map (fun j =>
        { before := (Bank.mstep^[j] s.bank).snap, after := (Bank.mstep^[j + 1] s.bank).snap })
      err := 0#4 })

/-- R115: GEN restarts the buffer and continues the registers: GEN(m) and then GEN(n) give the two
consecutive stretches of what GEN(m + n) gives, the second buffer replacing the first. -/
def Obligations.GenRestartsBufferContinuesRegisters : Prop :=
  ∀ (s t u v : State) (m n : Nat), s.initDone = true → m + n ≤ s.cap.toNat →
    exec (.gen m) s = .next t → exec (.gen n) t = .next u → exec (.gen (m + n)) s = .next v →
    v.ks = t.ks ++ u.ks ∧ v.hist = t.hist ++ u.hist ∧ v.bank = u.bank ∧ v.trace = u.trace ∧
    t.ks.length = m ∧ u.ks.length = n

/-- R116: GEN(0) empties the buffers and moves nothing, GEN(KS_CAP) fills the buffer, and
GEN(KS_CAP + 1) is LENGTH and changes nothing but ERR. -/
def Obligations.GenAtItsBoundaries : Prop :=
  ∀ s : State, s.initDone = true →
    exec (.gen 0) s = .next { s with ks := [], hist := [], err := 0#4 } ∧
    (∃ t, exec (.gen s.cap.toNat) s = .next t ∧ t.ks.length = s.cap.toNat ∧ t.err = 0#4) ∧
    exec (.gen (s.cap.toNat + 1)) s = .next { s with err := 3#4 }

/-- R118 and R119: ENCDEC(n) completes once initialised for every n ≤ KS_CAP. With n ≤ KS_LEN the
registers, buffer, history and trace are unchanged and the mask is the existing buffer; with n >
KS_LEN everything is as GEN(n) leaves it and the mask is the new buffer. All of RESULT is written:
the masked data below n, and 0 from n to KS_CAP - 1. The errors are GEN's. -/
def Obligations.EncdecMasksData : Prop :=
  ∀ (s : State) (n : Nat),
    (s.initDone = false → exec (.encdec n) s = .next { s with err := 2#4 }) ∧
    (s.initDone = true → s.cap.toNat < n → exec (.encdec n) s = .next { s with err := 3#4 }) ∧
    (s.initDone = true → n ≤ s.cap.toNat → n ≤ s.ks.length →
      exec (.encdec n) s = .next { s with
        result := (List.range s.cap.toNat).map (fun k =>
          if k < n then s.data.getD k false ^^ s.ks.getD k false else false)
        err := 0#4 }) ∧
    (s.initDone = true → n ≤ s.cap.toNat → s.ks.length < n →
      ∃ t, exec (.gen n) s = .next t ∧ t.ks.length = n ∧
        exec (.encdec n) s = .next { t with
          result := (List.range s.cap.toNat).map (fun k =>
            if k < n then s.data.getD k false ^^ t.ks.getD k false else false) })

/-- R120 (a) and (d): masking twice gives the data back: an ENCDEC(n), its result written to DATA,
and a second ENCDEC(n), from any initialised state and whichever way the first one takes. -/
def Obligations.EncdecTwiceRecoversData : Prop :=
  ∀ (s t u : State) (n : Nat), s.initDone = true → n ≤ s.cap.toNat →
    exec (.encdec n) s = .next t → exec (.encdec n) { t with data := t.result } = .next u →
    (∀ k, k < n → u.result.getD k false = s.data.getD k false) ∧
    u.ks = t.ks ∧ u.bank = t.bank ∧ u.trace = t.trace

/-! ### Errors -/

/-- R134: the decode is checked first, then init_done, then the length, and the first failing check
gives the code; nothing else changes but PEND and BUSY. -/
def Obligations.CheckPriority : Prop :=
  ∀ (s : State) (w : Word),
    (∀ e, decodeCmd w = .error e →
      performCommand w s = .next { s with err := 1#4, pend := none, busy := false }) ∧
    (∀ n, decodeCmd w = .ok (.gen n) ∨ decodeCmd w = .ok (.encdec n) →
      (s.initDone = false →
        performCommand w s = .next { s with err := 2#4, pend := none, busy := false }) ∧
      (s.initDone = true → s.cap.toNat < n →
        performCommand w s = .next { s with err := 3#4, pend := none, busy := false }))

/-- R133: a command that leaves ERR ≠ 0 has changed nothing but ERR, and the Engine's step ends. -/
def Obligations.FailedCommandChangesOnlyErr : Prop :=
  ∀ (s t : State) (w : Word), performCommand w s = .next t → t.err ≠ 0#4 →
    t = { s with err := t.err, pend := none, busy := false }

/-- R137: a failing command issued again gives the same code and changes nothing. -/
def Obligations.RepeatedFailureGivesSameCode : Prop :=
  ∀ (s t : State) (w : Word), performCommand w s = .next t → t.err ≠ 0#4 →
    performCommand w t = .next t

/-- R135: ERR changes only when the Engine performs a command, or by reset. -/
def Obligations.ErrChangesOnlyWhenEngineActs : Prop :=
  ∀ s t : State, step s = .next t → (currentTurn s).isReset = false →
    (currentTurn s = .engine → s.busy = false) → t.err = s.err

/-- R129: once init_done is 1, no step but a reset clears it, and no step gives USAGE. -/
def Obligations.NoUsageErrorAfterInit : Prop :=
  ∀ s t : State, s.initDone = true → s.err ≠ 2#4 → step s = .next t →
    t.err ≠ 2#4 ∧ ((currentTurn s).isReset = false → t.initDone = true)

/-! ### Rules about the whole machine -/

/-- R20: only a successful INIT sets init_done, only reset clears it, and the Host reads it as
STATUS.INIT. -/
def Obligations.InitDoneSetByInitClearedByReset : Prop :=
  (∀ s : State, s.busy = false → (memRead 0x04 s).1.getLsbD 1 = s.initDone) ∧
  ∀ s t : State, step s = .next t →
    (s.initDone = true → t.initDone = false → (currentTurn s).isReset = true) ∧
    (s.initDone = false → t.initDone = true →
      currentTurn s = .engine ∧ s.busy = true ∧
      ∃ w fe, s.pend = some w ∧ decodeCmd w = .ok (.init fe))

/-- R15: the registers R1, R2 and R3 change only by a command that the Engine performs, a bank
operation of the internal port, or reset; a host access never changes them, nor anything else but
KEY, FRAME, DATA, IDX and the command in flight. -/
def Obligations.HostTurnNeverTouchesCipherState : Prop :=
  ∀ s t : State, currentTurn s = .host → step s = .next t →
    t = { s with
      key := t.key, frame := t.frame, data := t.data, idx := t.idx, pend := t.pend,
      busy := t.busy, sched := s.sched.tail, prog := t.prog, reads := t.reads, draws := t.draws }

/-- R24, R28 and the last sentence of R124: KEY, FRAME, DATA and IDX are never written by a command
or a bank operation, nor are the agents' own fields. -/
def Obligations.CommandsNeverWriteStagingRegisters : Prop :=
  ∀ (s t : State) (i : Instr), exec i s = .next t →
    t = { s with
      bank := t.bank, initDone := t.initDone, ks := t.ks, hist := t.hist, result := t.result,
      err := t.err, trace := t.trace }

/-- R38 and R147: KS_CAP never changes, by reset neither; and the trace only grows but by reset
(R31). -/
def Obligations.CapacityIsConstantAndTraceOnlyGrows : Prop :=
  ∀ s t : State, step s = .next t →
    t.cap = s.cap ∧ ((currentTurn s).isReset = false → s.trace <+: t.trace)

/-- R147 and R148: a reset turn leaves the reset state with KS_CAP kept, and on the trace the first
`emitted` of the events that the aborted command would have emitted from where it began, none if no
command was in flight. That earlier events are dropped, and that the agents' own fields stay, are the
model's reading (log 10, log 11). -/
def Obligations.ResetTurnRestoresResetState : Prop :=
  ∀ (s : State) (emitted : Nat) (rest : List Turn), s.sched = .reset emitted :: rest →
    ∃ events : List TraceEvent,
      step s = .next { State.resetWith s.cap with
        trace := events.take emitted, sched := rest, prog := s.prog, reads := s.reads,
        draws := s.draws } ∧
      (s.busy = false → events = []) ∧
      (∀ w t, s.busy = true → s.pend = some w →
        performCommand w { s with bank := startBank s, cycles := none } = .next t →
        t.trace = s.trace ++ events)

/-- R62: the Engine is weakly fair: from a busy state, with every access of the Host admitted, the
pending command is, after at most as many steps as the schedule is long, either performed by an
Engine step, with the effects R112 gives it from the state at which it began, or aborted by a reset.
That the Engine moves when the schedule is used up is the model's default turn (log 2). -/
def Obligations.EngineActsWithinTheSchedule : Prop :=
  ∀ (s : State) (w : Word), Inv s → s.busy = true → s.pend = some w →
    s.prog.all HostOp.isAdmitted = true →
    ∃ k, k ≤ s.sched.length ∧ ∃ m t : State,
      runFor k s = .next m ∧ m.busy = true ∧ m.pend = some w ∧
      step m = .next t ∧ t.busy = false ∧ t.pend = none ∧
      ((currentTurn m).isReset = true ∨
        (currentTurn m = .engine ∧ ∃ u : State,
          performCommand w { s with bank := startBank s, cycles := none } = .next u ∧
          t = { u with sched := t.sched, prog := t.prog, reads := t.reads, draws := t.draws }))

/-- R93, R114, R118, R92: the effect on the bank of a command that succeeds is that of its bank cycles,
driven one word a cycle on the internal port, and nothing else of the block changes in those cycles.
That the cycles are turns of their own is the model's choice (log 9). -/
def Obligations.CommandEqualsItsBankCycles : Prop :=
  ∀ (s t : State) (w : Word) (i : Instr), s.busy = true → s.pend = some w → s.cycles = none →
    decodeCmd w = .ok i → exec i s = .next t → t.err = 0#4 →
    ∃ c : Option BankCycles,
      runFor (portSequence s i).length
          { s with sched := List.replicate (portSequence s i).length .bankCycle } =
        .next { s with sched := [], bank := t.bank, cycles := c }

/-- R160: the bank cycles of INIT are 165 without and 187 with a frame, of GEN(n) n, and of
ENCDEC(n) n or none. -/
def Obligations.ReferenceBankCycleCounts : Prop :=
  ∀ (s : State) (n : Nat),
    (portSequence s (.init false)).length = 165 ∧
    (portSequence s (.init true)).length = 187 ∧
    (∀ fe, (portSequence s (.init fe)).length = referenceCycles (.init fe) s.ksLen s.ksCap) ∧
    (portSequence s (.gen n)).length = n ∧
    (portSequence s (.encdec n)).length = if s.ks.length < n then n else 0

/-! ### Host accesses -/

/-- R58, the idle block: what each offset reads as, and that a read leaves the block unchanged. -/
def Obligations.IdleReadReturnsRegister : Prop :=
  ∀ s : State, Inv s → s.busy = false →
    (∀ off, off % 4 = 0 → off < 256 → (memRead off s).2 = s) ∧
    (∀ off, 0x40 ≤ off → off < 256 → (memRead off s).1 = 0#32) ∧
    (memRead 0x00 s).1 = 0#32 ∧
    (memRead 0x04 s).1.toNat = 2 * s.initDone.toNat + 16 * s.err.toNat ∧
    (memRead 0x08 s).1 = s.key.extractLsb 31 0 ∧ (memRead 0x0C s).1 = s.key.extractLsb 63 32 ∧
    (memRead 0x10 s).1.toNat = s.frame.toNat ∧ (memRead 0x14 s).1.toNat = s.ks.length ∧
    (memRead 0x18 s).1.toNat = s.cap.toNat ∧ (memRead 0x1C s).1.toNat = s.bank.r1.toNat ∧
    (memRead 0x20 s).1.toNat = s.bank.r2.toNat ∧ (memRead 0x24 s).1.toNat = s.bank.r3.toNat ∧
    (memRead 0x28 s).1.toNat = s.idx.toNat ∧
    (∀ b, b < 32 → (memRead 0x2C s).1.getLsbD b = s.ks.getD (32 * s.idx.toNat + b) false) ∧
    (∀ b, b < 32 → (memRead 0x30 s).1.getLsbD b = s.data.getD (32 * s.idx.toNat + b) false) ∧
    (∀ b, b < 32 → (memRead 0x34 s).1.getLsbD b = s.result.getD (32 * s.idx.toNat + b) false) ∧
    (memRead 0x3C s).1 ++ (memRead 0x38 s).1 = s.hist.getD s.idx.toNat 0#64

/-- R56: reads while BUSY = 1. Bit 0 of STATUS reads 1, CAP reads KS_CAP, unmapped offsets read 0;
every other mapped offset reads a free value, and each read that takes one leaves the next read
another one of the sequence (log 5). -/
def Obligations.BusyReadsAreFreeValues : Prop :=
  ∀ s : State, s.busy = true →
    (memRead 0x04 s).1.getLsbD 0 = true ∧
    (∀ b, b < 31 → (memRead 0x04 s).1.getLsbD (b + 1) = (Config.freeDraw s.draws).getLsbD b) ∧
    memRead 0x18 s = (s.cap.setWidth 32, s) ∧
    (∀ off, 0x40 ≤ off → off < 256 → memRead off s = (0#32, s)) ∧
    (∀ off, off % 4 = 0 → off < 0x40 → off ≠ 0x04 → off ≠ 0x18 →
      memRead off s = (Config.freeDraw s.draws, { s with draws := s.draws + 1 })) ∧
    (memRead 0x04 s).2 = { s with draws := s.draws + 1 }

/-- R57: a host read, busy or idle, changes nothing of the block; what the Host keeps is its own
(log 4). -/
def Obligations.ReadsHaveNoSideEffects : Prop :=
  ∀ (s : State) (off : Nat) (name : Option String) (rest : List HostOp),
    currentTurn s = .host → s.prog = .read off 4 name :: rest → off % 4 = 0 → off < 256 →
    step s = .next { s with
      sched := s.sched.tail, prog := rest, draws := (memRead off s).2.draws,
      reads := s.reads ++ [{ off := off, name := name, value := (memRead off s).1 }] } ∧
    (s.busy = false → (memRead off s).2.draws = s.draws)

/-- R55: while BUSY = 1 every host write is ignored, one to CMD included: only the Host's own
program moves on. -/
def Obligations.BusyWritesAreIgnored : Prop :=
  ∀ (s : State) (off : Nat) (v : Word) (rest : List HostOp), s.busy = true →
    currentTurn s = .host → s.prog = .write off 4 v :: rest → off % 4 = 0 → off < 256 →
    step s = .next { s with sched := s.sched.tail, prog := rest }

/-- R59: what a write to each offset does: nothing while BUSY = 1; on the idle block reserved bits
are dropped, and a write to a read-only register or an unmapped offset does nothing. -/
def Obligations.WritesStoreWritableBits : Prop :=
  ∀ (s : State) (v : Word),
    (s.busy = true → ∀ off, memWrite off v s = s) ∧
    (s.busy = false →
      memWrite 0x00 v s = { s with pend := some v, busy := true } ∧
      memWrite 0x08 v s = { s with key := s.key.extractLsb 63 32 ++ v } ∧
      memWrite 0x0C v s = { s with key := v ++ s.key.extractLsb 31 0 } ∧
      memWrite 0x10 v s = { s with frame := v.extractLsb 21 0 } ∧
      memWrite 0x28 v s = { s with idx := v.extractLsb 23 0 } ∧
      (∃ d : List Bool, memWrite 0x30 v s = { s with data := d } ∧ d.length = s.data.length ∧
        (∀ b, b < 32 → 32 * s.idx.toNat + b < s.cap.toNat →
          32 * s.idx.toNat + b < s.data.length →
          d.getD (32 * s.idx.toNat + b) false = v.getLsbD b) ∧
        (∀ k, k / 32 ≠ s.idx.toNat ∨ s.cap.toNat ≤ k →
          d.getD k false = s.data.getD k false)) ∧
      (∀ off, off % 4 = 0 → off < 256 → off ∉ [0x00, 0x08, 0x0C, 0x10, 0x28, 0x30] →
        memWrite off v s = s))

/-- R35, R36, R40, R42: a writable register reads back its writable bits, and DATA_WIN the bits
below KS_CAP. -/
def Obligations.WritableRegistersReadBack : Prop :=
  ∀ (s : State) (v : Word), Inv s → s.busy = false →
    (memRead 0x08 (memWrite 0x08 v s)).1 = v ∧ (memRead 0x0C (memWrite 0x08 v s)).1 =
      (memRead 0x0C s).1 ∧
    (memRead 0x0C (memWrite 0x0C v s)).1 = v ∧ (memRead 0x08 (memWrite 0x0C v s)).1 =
      (memRead 0x08 s).1 ∧
    (memRead 0x10 (memWrite 0x10 v s)).1 = v &&& 0x003FFFFF#32 ∧
    (memRead 0x28 (memWrite 0x28 v s)).1 = v &&& 0x00FFFFFF#32 ∧
    (∀ b, b < 32 → (memRead 0x30 (memWrite 0x30 v s)).1.getLsbD b =
      (decide (32 * s.idx.toNat + b < s.cap.toNat) && v.getLsbD b))

/-- An access inside the window that is not an aligned 32-bit one stops the run, the Host being
stuck at it (R53, log 6), and one beyond the window is refused by name (R52, R68, log 7). -/
def Obligations.OnlyAlignedWordAccessesRun : Prop :=
  ∀ (s : State) (op : HostOp) (rest : List HostOp) (off size : Nat), currentTurn s = .host →
    s.prog = op :: rest →
    ((∃ name, op = .read off size name) ∨ (∃ v, op = .write off size v)) →
    (off < 256 → ¬ (size = 4 ∧ off % 4 = 0) → step s = .fault (.stuckAccess off size)) ∧
    (256 ≤ off → step s = .refused (.outsideWindow off)) ∧
    (off < 256 → size = 4 → off % 4 = 0 → ∃ t, step s = .next t)

/-- R79: `poll` reads STATUS and repeats until bit 0 has read 0; each Host turn is one read
(log 19). -/
def Obligations.PollWaitsForBusyClear : Prop :=
  ∀ (s : State) (rest : List HostOp), currentTurn s = .host → s.prog = .poll :: rest →
    (s.busy = true → ∃ v, v.getLsbD 0 = true ∧
      step s = .next { s with
        sched := s.sched.tail, draws := s.draws + 1,
        reads := s.reads ++ [{ off := 0x04, name := none, value := v }] }) ∧
    (s.busy = false → ∃ v, v.getLsbD 0 = false ∧
      step s = .next { s with
        sched := s.sched.tail, prog := rest,
        reads := s.reads ++ [{ off := 0x04, name := none, value := v }] })

/-- R79 and R94: the pseudo-instructions `setkey` and `setframe`, run by the Host on an idle block
with an empty schedule (log 2), leave character k of the string in key bit k and frame bit k, and
change nothing else. -/
def Obligations.SetkeyAndSetframeKeepStringOrder : Prop :=
  (∀ (s : State) (k : List Bool) (ops rest : List HostOp) (cap : Nat), s.busy = false →
    (AsmLine.setkey k).assemble cap = .ok ops →
    ∃ key, runFor 2 { s with sched := [], prog := ops ++ rest } =
        .next { s with sched := [], prog := rest, key := key } ∧
      ∀ j, j < 64 → key.getLsbD j = k.getD j false) ∧
  (∀ (s : State) (f : List Bool) (ops rest : List HostOp) (cap : Nat), s.busy = false →
    (AsmLine.setframe f).assemble cap = .ok ops →
    ∃ frame, runFor 1 { s with sched := [], prog := ops ++ rest } =
        .next { s with sched := [], prog := rest, frame := frame } ∧
      ∀ j, j < 22 → frame.getLsbD j = f.getD j false)

/-- R79: the pseudo-instruction `wrdata D`, run by the Host on an idle block with an
empty schedule (log 2), leaves character k of D in DATA bit k, clears the rest of the last word it writes, and leaves later words unchanged. -/
def Obligations.WrdataWritesStringInOrder : Prop :=
  ∀ (s : State) (d : List Bool) (ops rest : List HostOp), Inv s → s.busy = false →
    (AsmLine.wrdata d).assemble s.ksCap = .ok ops →
    ∃ data idx, runFor ops.length
        { s with sched := [], prog := ops ++ rest } =
        .next { s with sched := [], prog := rest, data := data, idx := idx } ∧
      (∀ k, k < d.length → data.getD k false = d.getD k false) ∧
      (∀ k, d.length ≤ k → k < 32 * ((d.length + 31) / 32) → data.getD k false = false) ∧
      (∀ k, 32 * ((d.length + 31) / 32) ≤ k → data.getD k false = s.data.getD k false)

/-- R61: a command the Host writes to CMD on an idle block is performed, with the operands as they
stand at the write (R64), before the poll that follows it ends, whatever turns the schedule holds (a
reset aside, which aborts the command, R148): at the first state at which the poll has ended, the
block is as the command leaves it, and the last read had bit 0 = 0. The bound on the steps comes from
the default turns after the schedule (log 2). -/
def Obligations.PolledCommandIsPerformed : Prop :=
  ∀ (s : State) (w : Word) (rest : List HostOp), Inv s → s.busy = false →
    s.prog = .write 0x00 4 w :: .poll :: rest →
    (∀ turn ∈ s.sched, turn.isReset = false) →
    ∃ k, k ≤ s.sched.length + 3 ∧
      (∀ j, j < k → ∃ m, runFor j s = .next m ∧ m.prog ≠ rest) ∧
      ∃ (u t : State) (v : Word),
        performCommand w { s with pend := some w, busy := true } = .next u ∧
        runFor k s = .next t ∧ v.getLsbD 0 = false ∧
        t.reads.getLast? = some { off := 0x04, name := none, value := v } ∧
        t = { u with sched := t.sched, prog := rest, reads := t.reads, draws := t.draws }

/-! ### Who may change the bank, and who may end a command -/

/-- R15: R1, R2 and R3 change only by the bank's own operations, and these run only for a command that
succeeds, an INIT, GEN or ENCDEC in flight: in the Engine's step that performs it, or in a bank cycle
of it, which is one CLEAR, LOAD or MSTEP (log 9). Reset is the one other writer (R147); no host access
is one. -/
def Obligations.OnlyCommandsMoveTheBank : Prop :=
  ∀ s t : State, step s = .next t → t.bank ≠ s.bank →
    (currentTurn s).isReset = true ∨
    (s.busy = true ∧ ∃ (w : Word) (i : Instr) (u : State),
      s.pend = some w ∧ decodeCmd w = .ok i ∧ exec i s = .next u ∧ u.err = 0#4 ∧
      ((∃ fe, i = .init fe) ∨ (∃ n, i = .gen n) ∨ (∃ n, i = .encdec n)) ∧
      (currentTurn s = .engine ∨
        (currentTurn s = .bankCycle ∧ ∃ (op : Instr) (v : State),
          (op = .clear ∨ (∃ b, op = .load b) ∨ op = .mstep) ∧
          exec op s = .next v ∧ t.bank = v.bank)))

/-- R61: BUSY goes from 1 to 0 only by the Engine's step, which performs the pending word from the
state at which the command began, or by a reset; until then the word in flight, its operands (R64)
and all that the block holds stay as they are but for the bank, whose cycles may be under way (log 9),
and a poll does not end. -/
def Obligations.BusyEndsOnlyByEngineOrReset : Prop :=
  ∀ s t : State, s.busy = true → step s = .next t →
    (t.busy = false → (currentTurn s).isReset = true ∨
      (currentTurn s = .engine ∧ ∃ w, s.pend = some w ∧
        performCommand w { s with sched := s.sched.tail, bank := startBank s, cycles := none } =
          .next t)) ∧
    (t.busy = true → t = { s with
      bank := t.bank, cycles := t.cycles, sched := s.sched.tail, prog := t.prog, reads := t.reads,
      draws := t.draws }) ∧
    (∀ rest, s.prog = .poll :: rest → t.prog = s.prog)

/-- R19 and R112: the Engine's step is atomic: however many bank cycles of the command have been
driven before it, its result is that of the step taken at once (log 9). -/
def Obligations.EngineStepIsAtomicOverBankCycles : Prop :=
  ∀ (s : State) (k : Nat) (rest : List Turn),
    ∃ u : State,
      runFor k { s with sched := List.replicate k .bankCycle ++ .engine :: rest } = .next u ∧
      step u = step { s with sched := .engine :: rest }
end

