-- ==== Sys2Proof/Laws/State.lean ====
section
/-! SUPPORT. One lemma per field per update of State, each true by rfl, so that no proof unfolds a
record update. -/

namespace Sys2Proof.Machine.State

variable (s : State)

/-! #### setBank -/

@[simp] theorem setBank_bank (b : Bank) : (setBank b s).bank = b := rfl
@[simp] theorem setBank_initDone (b : Bank) : (setBank b s).initDone = s.initDone := rfl
@[simp] theorem setBank_ks (b : Bank) : (setBank b s).ks = s.ks := rfl
@[simp] theorem setBank_hist (b : Bank) : (setBank b s).hist = s.hist := rfl
@[simp] theorem setBank_key (b : Bank) : (setBank b s).key = s.key := rfl
@[simp] theorem setBank_frame (b : Bank) : (setBank b s).frame = s.frame := rfl
@[simp] theorem setBank_data (b : Bank) : (setBank b s).data = s.data := rfl
@[simp] theorem setBank_result (b : Bank) : (setBank b s).result = s.result := rfl
@[simp] theorem setBank_idx (b : Bank) : (setBank b s).idx = s.idx := rfl
@[simp] theorem setBank_err (b : Bank) : (setBank b s).err = s.err := rfl
@[simp] theorem setBank_busy (b : Bank) : (setBank b s).busy = s.busy := rfl
@[simp] theorem setBank_pend (b : Bank) : (setBank b s).pend = s.pend := rfl
@[simp] theorem setBank_cap (b : Bank) : (setBank b s).cap = s.cap := rfl
@[simp] theorem setBank_trace (b : Bank) : (setBank b s).trace = s.trace := rfl
@[simp] theorem setBank_cycles (b : Bank) : (setBank b s).cycles = s.cycles := rfl
@[simp] theorem setBank_sched (b : Bank) : (setBank b s).sched = s.sched := rfl
@[simp] theorem setBank_prog (b : Bank) : (setBank b s).prog = s.prog := rfl
@[simp] theorem setBank_reads (b : Bank) : (setBank b s).reads = s.reads := rfl
@[simp] theorem setBank_draws (b : Bank) : (setBank b s).draws = s.draws := rfl

@[simp] theorem setBank_ksCap (b : Bank) : (setBank b s).ksCap = s.ksCap := rfl
@[simp] theorem setBank_ksLen (b : Bank) : (setBank b s).ksLen = s.ksLen := rfl

/-! #### setErr -/

@[simp] theorem setErr_bank (e : BitVec 4) : (setErr e s).bank = s.bank := rfl
@[simp] theorem setErr_initDone (e : BitVec 4) : (setErr e s).initDone = s.initDone := rfl
@[simp] theorem setErr_ks (e : BitVec 4) : (setErr e s).ks = s.ks := rfl
@[simp] theorem setErr_hist (e : BitVec 4) : (setErr e s).hist = s.hist := rfl
@[simp] theorem setErr_key (e : BitVec 4) : (setErr e s).key = s.key := rfl
@[simp] theorem setErr_frame (e : BitVec 4) : (setErr e s).frame = s.frame := rfl
@[simp] theorem setErr_data (e : BitVec 4) : (setErr e s).data = s.data := rfl
@[simp] theorem setErr_result (e : BitVec 4) : (setErr e s).result = s.result := rfl
@[simp] theorem setErr_idx (e : BitVec 4) : (setErr e s).idx = s.idx := rfl
@[simp] theorem setErr_err (e : BitVec 4) : (setErr e s).err = e := rfl
@[simp] theorem setErr_busy (e : BitVec 4) : (setErr e s).busy = s.busy := rfl
@[simp] theorem setErr_pend (e : BitVec 4) : (setErr e s).pend = s.pend := rfl
@[simp] theorem setErr_cap (e : BitVec 4) : (setErr e s).cap = s.cap := rfl
@[simp] theorem setErr_trace (e : BitVec 4) : (setErr e s).trace = s.trace := rfl
@[simp] theorem setErr_cycles (e : BitVec 4) : (setErr e s).cycles = s.cycles := rfl
@[simp] theorem setErr_sched (e : BitVec 4) : (setErr e s).sched = s.sched := rfl
@[simp] theorem setErr_prog (e : BitVec 4) : (setErr e s).prog = s.prog := rfl
@[simp] theorem setErr_reads (e : BitVec 4) : (setErr e s).reads = s.reads := rfl
@[simp] theorem setErr_draws (e : BitVec 4) : (setErr e s).draws = s.draws := rfl

@[simp] theorem setErr_ksCap (e : BitVec 4) : (setErr e s).ksCap = s.ksCap := rfl
@[simp] theorem setErr_ksLen (e : BitVec 4) : (setErr e s).ksLen = s.ksLen := rfl

/-! #### setInitDone -/

@[simp] theorem setInitDone_bank : (setInitDone s).bank = s.bank := rfl
@[simp] theorem setInitDone_initDone : (setInitDone s).initDone = true := rfl
@[simp] theorem setInitDone_ks : (setInitDone s).ks = s.ks := rfl
@[simp] theorem setInitDone_hist : (setInitDone s).hist = s.hist := rfl
@[simp] theorem setInitDone_key : (setInitDone s).key = s.key := rfl
@[simp] theorem setInitDone_frame : (setInitDone s).frame = s.frame := rfl
@[simp] theorem setInitDone_data : (setInitDone s).data = s.data := rfl
@[simp] theorem setInitDone_result : (setInitDone s).result = s.result := rfl
@[simp] theorem setInitDone_idx : (setInitDone s).idx = s.idx := rfl
@[simp] theorem setInitDone_err : (setInitDone s).err = s.err := rfl
@[simp] theorem setInitDone_busy : (setInitDone s).busy = s.busy := rfl
@[simp] theorem setInitDone_pend : (setInitDone s).pend = s.pend := rfl
@[simp] theorem setInitDone_cap : (setInitDone s).cap = s.cap := rfl
@[simp] theorem setInitDone_trace : (setInitDone s).trace = s.trace := rfl
@[simp] theorem setInitDone_cycles : (setInitDone s).cycles = s.cycles := rfl
@[simp] theorem setInitDone_sched : (setInitDone s).sched = s.sched := rfl
@[simp] theorem setInitDone_prog : (setInitDone s).prog = s.prog := rfl
@[simp] theorem setInitDone_reads : (setInitDone s).reads = s.reads := rfl
@[simp] theorem setInitDone_draws : (setInitDone s).draws = s.draws := rfl

@[simp] theorem setInitDone_ksCap : (setInitDone s).ksCap = s.ksCap := rfl
@[simp] theorem setInitDone_ksLen : (setInitDone s).ksLen = s.ksLen := rfl

/-! #### clearBuffers -/

@[simp] theorem clearBuffers_bank : (clearBuffers s).bank = s.bank := rfl
@[simp] theorem clearBuffers_initDone : (clearBuffers s).initDone = s.initDone := rfl
@[simp] theorem clearBuffers_ks : (clearBuffers s).ks = [] := rfl
@[simp] theorem clearBuffers_hist : (clearBuffers s).hist = [] := rfl
@[simp] theorem clearBuffers_key : (clearBuffers s).key = s.key := rfl
@[simp] theorem clearBuffers_frame : (clearBuffers s).frame = s.frame := rfl
@[simp] theorem clearBuffers_data : (clearBuffers s).data = s.data := rfl
@[simp] theorem clearBuffers_result : (clearBuffers s).result = s.result := rfl
@[simp] theorem clearBuffers_idx : (clearBuffers s).idx = s.idx := rfl
@[simp] theorem clearBuffers_err : (clearBuffers s).err = s.err := rfl
@[simp] theorem clearBuffers_busy : (clearBuffers s).busy = s.busy := rfl
@[simp] theorem clearBuffers_pend : (clearBuffers s).pend = s.pend := rfl
@[simp] theorem clearBuffers_cap : (clearBuffers s).cap = s.cap := rfl
@[simp] theorem clearBuffers_trace : (clearBuffers s).trace = s.trace := rfl
@[simp] theorem clearBuffers_cycles : (clearBuffers s).cycles = s.cycles := rfl
@[simp] theorem clearBuffers_sched : (clearBuffers s).sched = s.sched := rfl
@[simp] theorem clearBuffers_prog : (clearBuffers s).prog = s.prog := rfl
@[simp] theorem clearBuffers_reads : (clearBuffers s).reads = s.reads := rfl
@[simp] theorem clearBuffers_draws : (clearBuffers s).draws = s.draws := rfl

@[simp] theorem clearBuffers_ksCap : (clearBuffers s).ksCap = s.ksCap := rfl

/-! #### recordStep -/

@[simp] theorem recordStep_bank (b : Bank) (o : Bool) : (recordStep b o s).bank = b := rfl
@[simp] theorem recordStep_initDone (b : Bank) (o : Bool) : (recordStep b o s).initDone = s.initDone := rfl
@[simp] theorem recordStep_ks (b : Bank) (o : Bool) : (recordStep b o s).ks = s.ks ++ [o] := rfl
@[simp] theorem recordStep_hist (b : Bank) (o : Bool) : (recordStep b o s).hist = s.hist ++ [s.bank.snap] := rfl
@[simp] theorem recordStep_key (b : Bank) (o : Bool) : (recordStep b o s).key = s.key := rfl
@[simp] theorem recordStep_frame (b : Bank) (o : Bool) : (recordStep b o s).frame = s.frame := rfl
@[simp] theorem recordStep_data (b : Bank) (o : Bool) : (recordStep b o s).data = s.data := rfl
@[simp] theorem recordStep_result (b : Bank) (o : Bool) : (recordStep b o s).result = s.result := rfl
@[simp] theorem recordStep_idx (b : Bank) (o : Bool) : (recordStep b o s).idx = s.idx := rfl
@[simp] theorem recordStep_err (b : Bank) (o : Bool) : (recordStep b o s).err = s.err := rfl
@[simp] theorem recordStep_busy (b : Bank) (o : Bool) : (recordStep b o s).busy = s.busy := rfl
@[simp] theorem recordStep_pend (b : Bank) (o : Bool) : (recordStep b o s).pend = s.pend := rfl
@[simp] theorem recordStep_cap (b : Bank) (o : Bool) : (recordStep b o s).cap = s.cap := rfl
@[simp] theorem recordStep_trace (b : Bank) (o : Bool) : (recordStep b o s).trace = s.trace ++ [{ before := s.bank.snap, after := b.snap }] := rfl
@[simp] theorem recordStep_cycles (b : Bank) (o : Bool) : (recordStep b o s).cycles = s.cycles := rfl
@[simp] theorem recordStep_sched (b : Bank) (o : Bool) : (recordStep b o s).sched = s.sched := rfl
@[simp] theorem recordStep_prog (b : Bank) (o : Bool) : (recordStep b o s).prog = s.prog := rfl
@[simp] theorem recordStep_reads (b : Bank) (o : Bool) : (recordStep b o s).reads = s.reads := rfl
@[simp] theorem recordStep_draws (b : Bank) (o : Bool) : (recordStep b o s).draws = s.draws := rfl

@[simp] theorem recordStep_ksCap (b : Bank) (o : Bool) : (recordStep b o s).ksCap = s.ksCap := rfl

/-! #### setResult -/

@[simp] theorem setResult_bank (r : List Bool) : (setResult r s).bank = s.bank := rfl
@[simp] theorem setResult_initDone (r : List Bool) : (setResult r s).initDone = s.initDone := rfl
@[simp] theorem setResult_ks (r : List Bool) : (setResult r s).ks = s.ks := rfl
@[simp] theorem setResult_hist (r : List Bool) : (setResult r s).hist = s.hist := rfl
@[simp] theorem setResult_key (r : List Bool) : (setResult r s).key = s.key := rfl
@[simp] theorem setResult_frame (r : List Bool) : (setResult r s).frame = s.frame := rfl
@[simp] theorem setResult_data (r : List Bool) : (setResult r s).data = s.data := rfl
@[simp] theorem setResult_result (r : List Bool) : (setResult r s).result = r := rfl
@[simp] theorem setResult_idx (r : List Bool) : (setResult r s).idx = s.idx := rfl
@[simp] theorem setResult_err (r : List Bool) : (setResult r s).err = s.err := rfl
@[simp] theorem setResult_busy (r : List Bool) : (setResult r s).busy = s.busy := rfl
@[simp] theorem setResult_pend (r : List Bool) : (setResult r s).pend = s.pend := rfl
@[simp] theorem setResult_cap (r : List Bool) : (setResult r s).cap = s.cap := rfl
@[simp] theorem setResult_trace (r : List Bool) : (setResult r s).trace = s.trace := rfl
@[simp] theorem setResult_cycles (r : List Bool) : (setResult r s).cycles = s.cycles := rfl
@[simp] theorem setResult_sched (r : List Bool) : (setResult r s).sched = s.sched := rfl
@[simp] theorem setResult_prog (r : List Bool) : (setResult r s).prog = s.prog := rfl
@[simp] theorem setResult_reads (r : List Bool) : (setResult r s).reads = s.reads := rfl
@[simp] theorem setResult_draws (r : List Bool) : (setResult r s).draws = s.draws := rfl

@[simp] theorem setResult_ksCap (r : List Bool) : (setResult r s).ksCap = s.ksCap := rfl
@[simp] theorem setResult_ksLen (r : List Bool) : (setResult r s).ksLen = s.ksLen := rfl

/-! #### issue -/

@[simp] theorem issue_bank (w : Word) : (issue w s).bank = s.bank := rfl
@[simp] theorem issue_initDone (w : Word) : (issue w s).initDone = s.initDone := rfl
@[simp] theorem issue_ks (w : Word) : (issue w s).ks = s.ks := rfl
@[simp] theorem issue_hist (w : Word) : (issue w s).hist = s.hist := rfl
@[simp] theorem issue_key (w : Word) : (issue w s).key = s.key := rfl
@[simp] theorem issue_frame (w : Word) : (issue w s).frame = s.frame := rfl
@[simp] theorem issue_data (w : Word) : (issue w s).data = s.data := rfl
@[simp] theorem issue_result (w : Word) : (issue w s).result = s.result := rfl
@[simp] theorem issue_idx (w : Word) : (issue w s).idx = s.idx := rfl
@[simp] theorem issue_err (w : Word) : (issue w s).err = s.err := rfl
@[simp] theorem issue_busy (w : Word) : (issue w s).busy = true := rfl
@[simp] theorem issue_pend (w : Word) : (issue w s).pend = some w := rfl
@[simp] theorem issue_cap (w : Word) : (issue w s).cap = s.cap := rfl
@[simp] theorem issue_trace (w : Word) : (issue w s).trace = s.trace := rfl
@[simp] theorem issue_cycles (w : Word) : (issue w s).cycles = s.cycles := rfl
@[simp] theorem issue_sched (w : Word) : (issue w s).sched = s.sched := rfl
@[simp] theorem issue_prog (w : Word) : (issue w s).prog = s.prog := rfl
@[simp] theorem issue_reads (w : Word) : (issue w s).reads = s.reads := rfl
@[simp] theorem issue_draws (w : Word) : (issue w s).draws = s.draws := rfl

@[simp] theorem issue_ksCap (w : Word) : (issue w s).ksCap = s.ksCap := rfl
@[simp] theorem issue_ksLen (w : Word) : (issue w s).ksLen = s.ksLen := rfl

/-! #### retire -/

@[simp] theorem retire_bank : (retire s).bank = s.bank := rfl
@[simp] theorem retire_initDone : (retire s).initDone = s.initDone := rfl
@[simp] theorem retire_ks : (retire s).ks = s.ks := rfl
@[simp] theorem retire_hist : (retire s).hist = s.hist := rfl
@[simp] theorem retire_key : (retire s).key = s.key := rfl
@[simp] theorem retire_frame : (retire s).frame = s.frame := rfl
@[simp] theorem retire_data : (retire s).data = s.data := rfl
@[simp] theorem retire_result : (retire s).result = s.result := rfl
@[simp] theorem retire_idx : (retire s).idx = s.idx := rfl
@[simp] theorem retire_err : (retire s).err = s.err := rfl
@[simp] theorem retire_busy : (retire s).busy = false := rfl
@[simp] theorem retire_pend : (retire s).pend = none := rfl
@[simp] theorem retire_cap : (retire s).cap = s.cap := rfl
@[simp] theorem retire_trace : (retire s).trace = s.trace := rfl
@[simp] theorem retire_cycles : (retire s).cycles = s.cycles := rfl
@[simp] theorem retire_sched : (retire s).sched = s.sched := rfl
@[simp] theorem retire_prog : (retire s).prog = s.prog := rfl
@[simp] theorem retire_reads : (retire s).reads = s.reads := rfl
@[simp] theorem retire_draws : (retire s).draws = s.draws := rfl

@[simp] theorem retire_ksCap : (retire s).ksCap = s.ksCap := rfl
@[simp] theorem retire_ksLen : (retire s).ksLen = s.ksLen := rfl

/-! #### setKey -/

@[simp] theorem setKey_bank (k : BitVec 64) : (setKey k s).bank = s.bank := rfl
@[simp] theorem setKey_initDone (k : BitVec 64) : (setKey k s).initDone = s.initDone := rfl
@[simp] theorem setKey_ks (k : BitVec 64) : (setKey k s).ks = s.ks := rfl
@[simp] theorem setKey_hist (k : BitVec 64) : (setKey k s).hist = s.hist := rfl
@[simp] theorem setKey_key (k : BitVec 64) : (setKey k s).key = k := rfl
@[simp] theorem setKey_frame (k : BitVec 64) : (setKey k s).frame = s.frame := rfl
@[simp] theorem setKey_data (k : BitVec 64) : (setKey k s).data = s.data := rfl
@[simp] theorem setKey_result (k : BitVec 64) : (setKey k s).result = s.result := rfl
@[simp] theorem setKey_idx (k : BitVec 64) : (setKey k s).idx = s.idx := rfl
@[simp] theorem setKey_err (k : BitVec 64) : (setKey k s).err = s.err := rfl
@[simp] theorem setKey_busy (k : BitVec 64) : (setKey k s).busy = s.busy := rfl
@[simp] theorem setKey_pend (k : BitVec 64) : (setKey k s).pend = s.pend := rfl
@[simp] theorem setKey_cap (k : BitVec 64) : (setKey k s).cap = s.cap := rfl
@[simp] theorem setKey_trace (k : BitVec 64) : (setKey k s).trace = s.trace := rfl
@[simp] theorem setKey_cycles (k : BitVec 64) : (setKey k s).cycles = s.cycles := rfl
@[simp] theorem setKey_sched (k : BitVec 64) : (setKey k s).sched = s.sched := rfl
@[simp] theorem setKey_prog (k : BitVec 64) : (setKey k s).prog = s.prog := rfl
@[simp] theorem setKey_reads (k : BitVec 64) : (setKey k s).reads = s.reads := rfl
@[simp] theorem setKey_draws (k : BitVec 64) : (setKey k s).draws = s.draws := rfl

@[simp] theorem setKey_ksCap (k : BitVec 64) : (setKey k s).ksCap = s.ksCap := rfl
@[simp] theorem setKey_ksLen (k : BitVec 64) : (setKey k s).ksLen = s.ksLen := rfl

/-! #### setFrame -/

@[simp] theorem setFrame_bank (f : BitVec 22) : (setFrame f s).bank = s.bank := rfl
@[simp] theorem setFrame_initDone (f : BitVec 22) : (setFrame f s).initDone = s.initDone := rfl
@[simp] theorem setFrame_ks (f : BitVec 22) : (setFrame f s).ks = s.ks := rfl
@[simp] theorem setFrame_hist (f : BitVec 22) : (setFrame f s).hist = s.hist := rfl
@[simp] theorem setFrame_key (f : BitVec 22) : (setFrame f s).key = s.key := rfl
@[simp] theorem setFrame_frame (f : BitVec 22) : (setFrame f s).frame = f := rfl
@[simp] theorem setFrame_data (f : BitVec 22) : (setFrame f s).data = s.data := rfl
@[simp] theorem setFrame_result (f : BitVec 22) : (setFrame f s).result = s.result := rfl
@[simp] theorem setFrame_idx (f : BitVec 22) : (setFrame f s).idx = s.idx := rfl
@[simp] theorem setFrame_err (f : BitVec 22) : (setFrame f s).err = s.err := rfl
@[simp] theorem setFrame_busy (f : BitVec 22) : (setFrame f s).busy = s.busy := rfl
@[simp] theorem setFrame_pend (f : BitVec 22) : (setFrame f s).pend = s.pend := rfl
@[simp] theorem setFrame_cap (f : BitVec 22) : (setFrame f s).cap = s.cap := rfl
@[simp] theorem setFrame_trace (f : BitVec 22) : (setFrame f s).trace = s.trace := rfl
@[simp] theorem setFrame_cycles (f : BitVec 22) : (setFrame f s).cycles = s.cycles := rfl
@[simp] theorem setFrame_sched (f : BitVec 22) : (setFrame f s).sched = s.sched := rfl
@[simp] theorem setFrame_prog (f : BitVec 22) : (setFrame f s).prog = s.prog := rfl
@[simp] theorem setFrame_reads (f : BitVec 22) : (setFrame f s).reads = s.reads := rfl
@[simp] theorem setFrame_draws (f : BitVec 22) : (setFrame f s).draws = s.draws := rfl

@[simp] theorem setFrame_ksCap (f : BitVec 22) : (setFrame f s).ksCap = s.ksCap := rfl
@[simp] theorem setFrame_ksLen (f : BitVec 22) : (setFrame f s).ksLen = s.ksLen := rfl

/-! #### setIdx -/

@[simp] theorem setIdx_bank (i : BitVec 24) : (setIdx i s).bank = s.bank := rfl
@[simp] theorem setIdx_initDone (i : BitVec 24) : (setIdx i s).initDone = s.initDone := rfl
@[simp] theorem setIdx_ks (i : BitVec 24) : (setIdx i s).ks = s.ks := rfl
@[simp] theorem setIdx_hist (i : BitVec 24) : (setIdx i s).hist = s.hist := rfl
@[simp] theorem setIdx_key (i : BitVec 24) : (setIdx i s).key = s.key := rfl
@[simp] theorem setIdx_frame (i : BitVec 24) : (setIdx i s).frame = s.frame := rfl
@[simp] theorem setIdx_data (i : BitVec 24) : (setIdx i s).data = s.data := rfl
@[simp] theorem setIdx_result (i : BitVec 24) : (setIdx i s).result = s.result := rfl
@[simp] theorem setIdx_idx (i : BitVec 24) : (setIdx i s).idx = i := rfl
@[simp] theorem setIdx_err (i : BitVec 24) : (setIdx i s).err = s.err := rfl
@[simp] theorem setIdx_busy (i : BitVec 24) : (setIdx i s).busy = s.busy := rfl
@[simp] theorem setIdx_pend (i : BitVec 24) : (setIdx i s).pend = s.pend := rfl
@[simp] theorem setIdx_cap (i : BitVec 24) : (setIdx i s).cap = s.cap := rfl
@[simp] theorem setIdx_trace (i : BitVec 24) : (setIdx i s).trace = s.trace := rfl
@[simp] theorem setIdx_cycles (i : BitVec 24) : (setIdx i s).cycles = s.cycles := rfl
@[simp] theorem setIdx_sched (i : BitVec 24) : (setIdx i s).sched = s.sched := rfl
@[simp] theorem setIdx_prog (i : BitVec 24) : (setIdx i s).prog = s.prog := rfl
@[simp] theorem setIdx_reads (i : BitVec 24) : (setIdx i s).reads = s.reads := rfl
@[simp] theorem setIdx_draws (i : BitVec 24) : (setIdx i s).draws = s.draws := rfl

@[simp] theorem setIdx_ksCap (i : BitVec 24) : (setIdx i s).ksCap = s.ksCap := rfl
@[simp] theorem setIdx_ksLen (i : BitVec 24) : (setIdx i s).ksLen = s.ksLen := rfl

/-! #### setData -/

@[simp] theorem setData_bank (d : List Bool) : (setData d s).bank = s.bank := rfl
@[simp] theorem setData_initDone (d : List Bool) : (setData d s).initDone = s.initDone := rfl
@[simp] theorem setData_ks (d : List Bool) : (setData d s).ks = s.ks := rfl
@[simp] theorem setData_hist (d : List Bool) : (setData d s).hist = s.hist := rfl
@[simp] theorem setData_key (d : List Bool) : (setData d s).key = s.key := rfl
@[simp] theorem setData_frame (d : List Bool) : (setData d s).frame = s.frame := rfl
@[simp] theorem setData_data (d : List Bool) : (setData d s).data = d := rfl
@[simp] theorem setData_result (d : List Bool) : (setData d s).result = s.result := rfl
@[simp] theorem setData_idx (d : List Bool) : (setData d s).idx = s.idx := rfl
@[simp] theorem setData_err (d : List Bool) : (setData d s).err = s.err := rfl
@[simp] theorem setData_busy (d : List Bool) : (setData d s).busy = s.busy := rfl
@[simp] theorem setData_pend (d : List Bool) : (setData d s).pend = s.pend := rfl
@[simp] theorem setData_cap (d : List Bool) : (setData d s).cap = s.cap := rfl
@[simp] theorem setData_trace (d : List Bool) : (setData d s).trace = s.trace := rfl
@[simp] theorem setData_cycles (d : List Bool) : (setData d s).cycles = s.cycles := rfl
@[simp] theorem setData_sched (d : List Bool) : (setData d s).sched = s.sched := rfl
@[simp] theorem setData_prog (d : List Bool) : (setData d s).prog = s.prog := rfl
@[simp] theorem setData_reads (d : List Bool) : (setData d s).reads = s.reads := rfl
@[simp] theorem setData_draws (d : List Bool) : (setData d s).draws = s.draws := rfl

@[simp] theorem setData_ksCap (d : List Bool) : (setData d s).ksCap = s.ksCap := rfl
@[simp] theorem setData_ksLen (d : List Bool) : (setData d s).ksLen = s.ksLen := rfl

/-! #### setCycles -/

@[simp] theorem setCycles_bank (c : Option BankCycles) : (setCycles c s).bank = s.bank := rfl
@[simp] theorem setCycles_initDone (c : Option BankCycles) : (setCycles c s).initDone = s.initDone := rfl
@[simp] theorem setCycles_ks (c : Option BankCycles) : (setCycles c s).ks = s.ks := rfl
@[simp] theorem setCycles_hist (c : Option BankCycles) : (setCycles c s).hist = s.hist := rfl
@[simp] theorem setCycles_key (c : Option BankCycles) : (setCycles c s).key = s.key := rfl
@[simp] theorem setCycles_frame (c : Option BankCycles) : (setCycles c s).frame = s.frame := rfl
@[simp] theorem setCycles_data (c : Option BankCycles) : (setCycles c s).data = s.data := rfl
@[simp] theorem setCycles_result (c : Option BankCycles) : (setCycles c s).result = s.result := rfl
@[simp] theorem setCycles_idx (c : Option BankCycles) : (setCycles c s).idx = s.idx := rfl
@[simp] theorem setCycles_err (c : Option BankCycles) : (setCycles c s).err = s.err := rfl
@[simp] theorem setCycles_busy (c : Option BankCycles) : (setCycles c s).busy = s.busy := rfl
@[simp] theorem setCycles_pend (c : Option BankCycles) : (setCycles c s).pend = s.pend := rfl
@[simp] theorem setCycles_cap (c : Option BankCycles) : (setCycles c s).cap = s.cap := rfl
@[simp] theorem setCycles_trace (c : Option BankCycles) : (setCycles c s).trace = s.trace := rfl
@[simp] theorem setCycles_cycles (c : Option BankCycles) : (setCycles c s).cycles = c := rfl
@[simp] theorem setCycles_sched (c : Option BankCycles) : (setCycles c s).sched = s.sched := rfl
@[simp] theorem setCycles_prog (c : Option BankCycles) : (setCycles c s).prog = s.prog := rfl
@[simp] theorem setCycles_reads (c : Option BankCycles) : (setCycles c s).reads = s.reads := rfl
@[simp] theorem setCycles_draws (c : Option BankCycles) : (setCycles c s).draws = s.draws := rfl

@[simp] theorem setCycles_ksCap (c : Option BankCycles) : (setCycles c s).ksCap = s.ksCap := rfl
@[simp] theorem setCycles_ksLen (c : Option BankCycles) : (setCycles c s).ksLen = s.ksLen := rfl

/-! #### setSched -/

@[simp] theorem setSched_bank (l : List Turn) : (setSched l s).bank = s.bank := rfl
@[simp] theorem setSched_initDone (l : List Turn) : (setSched l s).initDone = s.initDone := rfl
@[simp] theorem setSched_ks (l : List Turn) : (setSched l s).ks = s.ks := rfl
@[simp] theorem setSched_hist (l : List Turn) : (setSched l s).hist = s.hist := rfl
@[simp] theorem setSched_key (l : List Turn) : (setSched l s).key = s.key := rfl
@[simp] theorem setSched_frame (l : List Turn) : (setSched l s).frame = s.frame := rfl
@[simp] theorem setSched_data (l : List Turn) : (setSched l s).data = s.data := rfl
@[simp] theorem setSched_result (l : List Turn) : (setSched l s).result = s.result := rfl
@[simp] theorem setSched_idx (l : List Turn) : (setSched l s).idx = s.idx := rfl
@[simp] theorem setSched_err (l : List Turn) : (setSched l s).err = s.err := rfl
@[simp] theorem setSched_busy (l : List Turn) : (setSched l s).busy = s.busy := rfl
@[simp] theorem setSched_pend (l : List Turn) : (setSched l s).pend = s.pend := rfl
@[simp] theorem setSched_cap (l : List Turn) : (setSched l s).cap = s.cap := rfl
@[simp] theorem setSched_trace (l : List Turn) : (setSched l s).trace = s.trace := rfl
@[simp] theorem setSched_cycles (l : List Turn) : (setSched l s).cycles = s.cycles := rfl
@[simp] theorem setSched_sched (l : List Turn) : (setSched l s).sched = l := rfl
@[simp] theorem setSched_prog (l : List Turn) : (setSched l s).prog = s.prog := rfl
@[simp] theorem setSched_reads (l : List Turn) : (setSched l s).reads = s.reads := rfl
@[simp] theorem setSched_draws (l : List Turn) : (setSched l s).draws = s.draws := rfl

@[simp] theorem setSched_ksCap (l : List Turn) : (setSched l s).ksCap = s.ksCap := rfl
@[simp] theorem setSched_ksLen (l : List Turn) : (setSched l s).ksLen = s.ksLen := rfl

/-! #### setProg -/

@[simp] theorem setProg_bank (l : List HostOp) : (setProg l s).bank = s.bank := rfl
@[simp] theorem setProg_initDone (l : List HostOp) : (setProg l s).initDone = s.initDone := rfl
@[simp] theorem setProg_ks (l : List HostOp) : (setProg l s).ks = s.ks := rfl
@[simp] theorem setProg_hist (l : List HostOp) : (setProg l s).hist = s.hist := rfl
@[simp] theorem setProg_key (l : List HostOp) : (setProg l s).key = s.key := rfl
@[simp] theorem setProg_frame (l : List HostOp) : (setProg l s).frame = s.frame := rfl
@[simp] theorem setProg_data (l : List HostOp) : (setProg l s).data = s.data := rfl
@[simp] theorem setProg_result (l : List HostOp) : (setProg l s).result = s.result := rfl
@[simp] theorem setProg_idx (l : List HostOp) : (setProg l s).idx = s.idx := rfl
@[simp] theorem setProg_err (l : List HostOp) : (setProg l s).err = s.err := rfl
@[simp] theorem setProg_busy (l : List HostOp) : (setProg l s).busy = s.busy := rfl
@[simp] theorem setProg_pend (l : List HostOp) : (setProg l s).pend = s.pend := rfl
@[simp] theorem setProg_cap (l : List HostOp) : (setProg l s).cap = s.cap := rfl
@[simp] theorem setProg_trace (l : List HostOp) : (setProg l s).trace = s.trace := rfl
@[simp] theorem setProg_cycles (l : List HostOp) : (setProg l s).cycles = s.cycles := rfl
@[simp] theorem setProg_sched (l : List HostOp) : (setProg l s).sched = s.sched := rfl
@[simp] theorem setProg_prog (l : List HostOp) : (setProg l s).prog = l := rfl
@[simp] theorem setProg_reads (l : List HostOp) : (setProg l s).reads = s.reads := rfl
@[simp] theorem setProg_draws (l : List HostOp) : (setProg l s).draws = s.draws := rfl

@[simp] theorem setProg_ksCap (l : List HostOp) : (setProg l s).ksCap = s.ksCap := rfl
@[simp] theorem setProg_ksLen (l : List HostOp) : (setProg l s).ksLen = s.ksLen := rfl

/-! #### logRead -/

@[simp] theorem logRead_bank (r : ReadRecord) : (logRead r s).bank = s.bank := rfl
@[simp] theorem logRead_initDone (r : ReadRecord) : (logRead r s).initDone = s.initDone := rfl
@[simp] theorem logRead_ks (r : ReadRecord) : (logRead r s).ks = s.ks := rfl
@[simp] theorem logRead_hist (r : ReadRecord) : (logRead r s).hist = s.hist := rfl
@[simp] theorem logRead_key (r : ReadRecord) : (logRead r s).key = s.key := rfl
@[simp] theorem logRead_frame (r : ReadRecord) : (logRead r s).frame = s.frame := rfl
@[simp] theorem logRead_data (r : ReadRecord) : (logRead r s).data = s.data := rfl
@[simp] theorem logRead_result (r : ReadRecord) : (logRead r s).result = s.result := rfl
@[simp] theorem logRead_idx (r : ReadRecord) : (logRead r s).idx = s.idx := rfl
@[simp] theorem logRead_err (r : ReadRecord) : (logRead r s).err = s.err := rfl
@[simp] theorem logRead_busy (r : ReadRecord) : (logRead r s).busy = s.busy := rfl
@[simp] theorem logRead_pend (r : ReadRecord) : (logRead r s).pend = s.pend := rfl
@[simp] theorem logRead_cap (r : ReadRecord) : (logRead r s).cap = s.cap := rfl
@[simp] theorem logRead_trace (r : ReadRecord) : (logRead r s).trace = s.trace := rfl
@[simp] theorem logRead_cycles (r : ReadRecord) : (logRead r s).cycles = s.cycles := rfl
@[simp] theorem logRead_sched (r : ReadRecord) : (logRead r s).sched = s.sched := rfl
@[simp] theorem logRead_prog (r : ReadRecord) : (logRead r s).prog = s.prog := rfl
@[simp] theorem logRead_reads (r : ReadRecord) : (logRead r s).reads = s.reads ++ [r] := rfl
@[simp] theorem logRead_draws (r : ReadRecord) : (logRead r s).draws = s.draws := rfl

@[simp] theorem logRead_ksCap (r : ReadRecord) : (logRead r s).ksCap = s.ksCap := rfl
@[simp] theorem logRead_ksLen (r : ReadRecord) : (logRead r s).ksLen = s.ksLen := rfl

/-! #### countDraw -/

@[simp] theorem countDraw_bank : (countDraw s).bank = s.bank := rfl
@[simp] theorem countDraw_initDone : (countDraw s).initDone = s.initDone := rfl
@[simp] theorem countDraw_ks : (countDraw s).ks = s.ks := rfl
@[simp] theorem countDraw_hist : (countDraw s).hist = s.hist := rfl
@[simp] theorem countDraw_key : (countDraw s).key = s.key := rfl
@[simp] theorem countDraw_frame : (countDraw s).frame = s.frame := rfl
@[simp] theorem countDraw_data : (countDraw s).data = s.data := rfl
@[simp] theorem countDraw_result : (countDraw s).result = s.result := rfl
@[simp] theorem countDraw_idx : (countDraw s).idx = s.idx := rfl
@[simp] theorem countDraw_err : (countDraw s).err = s.err := rfl
@[simp] theorem countDraw_busy : (countDraw s).busy = s.busy := rfl
@[simp] theorem countDraw_pend : (countDraw s).pend = s.pend := rfl
@[simp] theorem countDraw_cap : (countDraw s).cap = s.cap := rfl
@[simp] theorem countDraw_trace : (countDraw s).trace = s.trace := rfl
@[simp] theorem countDraw_cycles : (countDraw s).cycles = s.cycles := rfl
@[simp] theorem countDraw_sched : (countDraw s).sched = s.sched := rfl
@[simp] theorem countDraw_prog : (countDraw s).prog = s.prog := rfl
@[simp] theorem countDraw_reads : (countDraw s).reads = s.reads := rfl
@[simp] theorem countDraw_draws : (countDraw s).draws = s.draws + 1 := rfl

@[simp] theorem countDraw_ksCap : (countDraw s).ksCap = s.ksCap := rfl
@[simp] theorem countDraw_ksLen : (countDraw s).ksLen = s.ksLen := rfl

end Sys2Proof.Machine.State
end

