-- ==== Sys2Proof/Laws/Ops.lean ====
section
/-! SUPPORT. What the bit-level operations, the buffers and the checked commands do, said once. -/

namespace Sys2Proof.Machine

/-! ### Bits and buffers -/

theorem bitsOf_getLsbD (n : Nat) (f : Nat → Bool) (i : Nat) :
    (bitsOf n f).getLsbD i = (decide (i < n) && f i) := by
  induction n with
  | zero => simp [bitsOf]
  | succ n ih =>
    rw [bitsOf, BitVec.getLsbD_cons]
    split
    · subst_vars; simp
    · rw [ih]; congr 1; simp only [decide_eq_decide]; omega

@[simp] theorem bitstring_length {n : Nat} (r : BitVec n) : (bitstring r).length = n := by
  simp [bitstring]

theorem bitstring_getD {n : Nat} (r : BitVec n) (j : Nat) :
    (bitstring r).getD j false = r.getLsbD j := by
  by_cases h : j < n
  · simp [bitstring, List.getD, h]
  · simp [bitstring, List.getD, h, BitVec.getLsbD_of_ge r j (by omega)]

theorem windowWord_getLsbD (idx : BitVec 24) (len : Nat) (l : List Bool) (b : Nat) :
    (windowWord idx len l).getLsbD b =
      (decide (b < 32) && (decide (32 * idx.toNat + b < len) && bufferBit l (32 * idx.toNat + b))) := by
  rw [windowWord, bitsOf_getLsbD]
  by_cases h : 32 * idx.toNat + b < len <;> simp [h]

@[simp] theorem windowWrite_length (idx : BitVec 24) (cap : Nat) (v : Word) (l : List Bool) :
    (windowWrite idx cap v l).length = l.length := by simp [windowWrite]

theorem windowWrite_bufferBit (idx : BitVec 24) (cap : Nat) (v : Word) (l : List Bool) (k : Nat) :
    bufferBit (windowWrite idx cap v l) k =
      if k < l.length ∧ k < cap ∧ k / 32 = idx.toNat then v.getLsbD (k % 32) else bufferBit l k := by
  unfold bufferBit windowWrite
  by_cases h : k < l.length
  · simp [List.getD, h]
  · simp [List.getD, h]

@[simp] theorem maskedResult_length (n cap : Nat) (data ks : List Bool) :
    (maskedResult n cap data ks).length = cap := by simp [maskedResult]

theorem maskedResult_bufferBit (n cap : Nat) (data ks : List Bool) (k : Nat) :
    bufferBit (maskedResult n cap data ks) k =
      (decide (k < cap ∧ k < n) && (bufferBit data k ^^ bufferBit ks k)) := by
  unfold bufferBit maskedResult
  by_cases h : k < cap
  · by_cases h' : k < n <;> simp [bufferBit, List.getD, h, h']
  · simp [List.getD, h]

/-! ### Checked commands -/

/-- Everything a checked command can do: USAGE, LENGTH, or its body. -/
theorem checkedCommand_cases (n : Nat) (body : State → State) (s : State) :
    (s.initDone = false ∧ checkedCommand n body s = s.setErr 2#4) ∨
    (s.initDone = true ∧ s.ksCap < n ∧ checkedCommand n body s = s.setErr 3#4) ∨
    (s.initDone = true ∧ n ≤ s.ksCap ∧ checkedCommand n body s = (body s).setErr 0#4) := by
  unfold checkedCommand lengthCommandError
  cases hi : s.initDone
  · exact .inl ⟨rfl, by simp [raiseErr, ErrCode.bits]⟩
  · by_cases h : s.ksCap < n
    · exact .inr (.inl ⟨rfl, h, by simp [h, raiseErr, ErrCode.bits]⟩)
    · exact .inr (.inr ⟨rfl, by omega, by simp [h, succeed, ErrCode.bits]⟩)

theorem checkedCommand_runs {n : Nat} {body : State → State} {s : State} (hi : s.initDone = true)
    (hn : n ≤ s.ksCap) : checkedCommand n body s = (body s).setErr 0#4 := by
  obtain ⟨h, -⟩ | ⟨-, h, -⟩ | ⟨-, -, h⟩ := checkedCommand_cases n body s
  · simp [hi] at h
  · omega
  · exact h

/-! ### GEN's body -/

/-- n steps of GEN's body, each field in closed form: the bank moves n majority steps, each buffer
grows by one entry a step, and nothing else changes. -/
theorem genSteps_eq (n : Nat) (s : State) :
    genSteps n s = { s with
      bank := Bank.mstep^[n] s.bank
      ks := s.ks ++ (List.range n).map (fun j => (Bank.mstep^[j + 1] s.bank).ksBit)
      hist := s.hist ++ (List.range n).map (fun j => (Bank.mstep^[j] s.bank).snap)
      trace := s.trace ++ (List.range n).map (fun j =>
        { before := (Bank.mstep^[j] s.bank).snap, after := (Bank.mstep^[j + 1] s.bank).snap }) } := by
  induction n generalizing s with
  | zero => simp [genSteps]
  | succ n ih =>
    rw [genSteps, ih]
    simp [genStep, State.recordStep, List.range_succ_eq_map, Function.comp_def]

theorem msteps_eq_iterate (n : Nat) (b : Bank) : Bank.msteps n b = Bank.mstep^[n] b := by
  induction n generalizing b with
  | zero => rfl
  | succ n ih => rw [Bank.msteps, ih]; rfl

end Sys2Proof.Machine
end

