-- ==== Sys2Proof/Laws/PerInstr.lean ====
section
/-! SUPPORT. Statements about every instruction, one lemma per constructor. The family TableRow says
that the encoding of a well-formed instruction has the fixed bits of its row of
spec/opcode_table.json. -/

namespace Sys2Proof.Laws.TableRow

/-- The fixed bits of the row stand in the encoded word. -/
def Statement (i : Instr) : Prop :=
  i.wf = true → (encode i).toNat &&& (tableRow i).mask = (tableRow i).pattern

/-- The low byte of a packed command word is its OP. -/
theorem packCmd_op (arg : BitVec 24) (op : BitVec 8) :
    (packCmd arg op).toNat &&& 0xFF = op.toNat := by
  have h := op.isLt
  rw [show (0xFF : Nat) = 2 ^ 8 - 1 from rfl, Nat.and_two_pow_sub_one_eq_mod, packCmd,
    BitVec.toNat_append, Nat.shiftLeft_eq, Nat.mul_comm, ← Nat.two_pow_add_eq_or_of_lt h]
  omega

theorem init (fe : Bool) : Statement (.init fe) := fun _ => by cases fe <;> decide

theorem gen (n : Nat) : Statement (.gen n) := fun _ => packCmd_op _ _

theorem encdec (n : Nat) : Statement (.encdec n) := fun _ => packCmd_op _ _

theorem hold : Statement .hold := fun _ => by decide

theorem clear : Statement .clear := fun _ => by decide

theorem load (din : Bool) : Statement (.load din) := fun _ => by cases din <;> decide

theorem mstep : Statement .mstep := fun _ => by decide

end Sys2Proof.Laws.TableRow
end

