-- ==== Sys2Proof/Laws/Turns.lean ====
section
/-! SUPPORT. What each turn of each agent can do: the inversion lemmas every invariant is proved
from. -/

namespace Sys2Proof.Machine

/-! ### The meanings -/

/-- Every meaning answers a next state: no instruction of this block stops. -/
theorem exec_next (i : Instr) (s : State) : ∃ t, exec i s = .next t := by
  cases i <;> exact ⟨_, rfl⟩

/-- A decoded command word is one of the three host commands. -/
theorem decodeCmd_isCommand {w : Word} {i : Instr} (h : decodeCmd w = .ok i) : isCommand i = true := by
  unfold decodeCmd at h
  split at h
  · split at h
    · cases h; rfl
    · cases h
  · split at h
    · cases h; rfl
    · split at h
      · cases h; rfl
      · cases h

/-- A port word decodes to a bank operation, whose meaning is to drive it on the bank. -/
theorem exec_decodePort (w : PortWord) (s : State) :
    exec (decodePort w) s = .next (s.setBank (s.bank.drive w)) := by
  unfold Bank.drive decodePort
  split
  · rfl
  · split
    · rfl
    · split <;> rfl

/-! ### The sequencer -/

/-- The command in flight that the sequencer works on is a pending word that decodes to a command
without an error. -/
theorem activeCommand_eq_some {s : State} {i : Instr} : activeCommand s = some i ↔
    s.busy = true ∧ ∃ w, s.pend = some w ∧ decodeCmd w = .ok i ∧ commandError i s = none := by
  unfold activeCommand
  constructor
  · intro h
    split at h
    · split at h
      · cases h
      · split at h
        · cases h
        · split at h
          · cases h; exact ⟨‹_›, _, ‹_›, ‹_›, ‹_›⟩
          · cases h
    · cases h
  · rintro ⟨hb, w, hp, hd, he⟩
    simp only [hb, if_true, hp, hd, he]

@[simp] theorem activeCommand_idle {s : State} (h : s.busy = false) : activeCommand s = none := by
  simp [activeCommand, h]

/-- A bank cycle: HOLD, or one word of the command in flight driven and taken off. -/
theorem bankCycleTurn_cases (s : State) :
    bankCycleTurn s = .next s ∨
    ∃ i w rest, activeCommand s = some i ∧ (cyclesOf i s).left = w :: rest ∧
      bankCycleTurn s = .next ((s.setCycles
        (some { start := (cyclesOf i s).start, left := rest })).setBank (s.bank.drive w)) := by
  unfold bankCycleTurn
  cases ha : activeCommand s with
  | none => exact .inl rfl
  | some i =>
    cases hl : (cyclesOf i s).left with
    | nil => exact .inl (by simp only [hl]; rfl)
    | cons w rest => exact .inr ⟨i, w, rest, rfl, hl, by simp only [hl, exec_decodePort]; rfl⟩

theorem startBank_none {s : State} (h : s.cycles = none) : startBank s = s.bank := by
  simp [startBank, h]

/-- With no bank cycle begun, the command starts from the present state. -/
theorem commandStart_none {s : State} (h : s.cycles = none) : commandStart s = s := by
  unfold commandStart
  rw [startBank_none h]
  cases s; cases h; rfl

/-! ### The Engine -/

/-- Performing a command word: a decoded command's meaning, or ILLEGAL_CMD, and then idle. -/
theorem performCommand_cases (w : Word) (s : State) :
    (∃ i t, decodeCmd w = .ok i ∧ exec i s = .next t ∧ performCommand w s = .next t.retire) ∨
    (∃ e, decodeCmd w = .error e ∧ performCommand w s = .next (s.setErr 1#4).retire) := by
  unfold performCommand
  cases h : decodeCmd w with
  | ok i =>
    obtain ⟨t, ht⟩ := exec_next i s
    exact .inl ⟨i, t, rfl, ht, by simp [ht, retireAfter]⟩
  | error e => exact .inr ⟨e, rfl, rfl⟩

/-- The Engine's turn: it passes, performs the pending word, or finds none. -/
theorem engineTurn_cases (s : State) :
    (s.busy = false ∧ engineTurn s = .next s) ∨
    (∃ w, s.busy = true ∧ s.pend = some w ∧ engineTurn s = performCommand w (commandStart s)) ∨
    (s.busy = true ∧ s.pend = none ∧ engineTurn s = .fault .noPendingCommand) := by
  unfold engineTurn
  cases hb : s.busy
  · exact .inl ⟨rfl, by simp⟩
  · cases hp : s.pend with
    | none => exact .inr (.inr ⟨rfl, rfl, by simp⟩)
    | some w => exact .inr (.inl ⟨w, rfl, rfl, by simp⟩)

/-! ### The Host -/

/-- A read gives the state back but for the count of free values. -/
theorem memRead_state (off : Nat) (s : State) :
    (memRead off s).2 = s ∨ (s.busy = true ∧ (memRead off s).2 = s.countDraw) := by
  unfold memRead
  split
  · exact .inl rfl
  · cases hb : s.busy
    · exact .inl (by rw [if_neg (by decide)])
    · rw [if_pos rfl]
      split
      · exact .inr ⟨rfl, rfl⟩
      · exact .inl rfl
      · exact .inr ⟨rfl, rfl⟩

/-- A write, on any offset: nothing, a command issued, or one staging register changed. -/
theorem memWrite_cases (off : Nat) (v : Word) (s : State) :
    memWrite off v s = s ∨
    (s.busy = false ∧ off = HostReg.cmd.offset ∧ memWrite off v s = s.issue v) ∨
    (s.busy = false ∧ off ≠ HostReg.cmd.offset ∧ ((∃ k, memWrite off v s = s.setKey k) ∨
      (∃ f, memWrite off v s = s.setFrame f) ∨ (∃ i, memWrite off v s = s.setIdx i) ∨
      memWrite off v s = s.setData (windowWrite s.idx s.ksCap v s.data))) := by
  cases hb : s.busy
  · rw [memWrite, hb, if_neg (by decide)]
    cases hr : HostReg.ofOffset off with
    | none => exact .inl rfl
    | some r =>
      have ho : r.offset = off := by simpa using List.find?_some hr
      subst ho
      cases r
      case cmd => exact .inr (.inl ⟨rfl, rfl, rfl⟩)
      case keyLo => exact .inr (.inr ⟨rfl, by decide, .inl ⟨_, rfl⟩⟩)
      case keyHi => exact .inr (.inr ⟨rfl, by decide, .inl ⟨_, rfl⟩⟩)
      case frame => exact .inr (.inr ⟨rfl, by decide, .inr (.inl ⟨_, rfl⟩)⟩)
      case idx => exact .inr (.inr ⟨rfl, by decide, .inr (.inr (.inl ⟨_, rfl⟩))⟩)
      case dataWin => exact .inr (.inr ⟨rfl, by decide, .inr (.inr (.inr rfl))⟩)
      all_goals exact .inl rfl
  · exact .inl (by rw [memWrite, hb, if_pos rfl])

/-- A host access that answers a next state was admitted. -/
theorem hostAccess_next {off size : Nat} {u t : State} (h : hostAccess off size u = .next t) :
    admitted off size = true ∧ t = u := by
  unfold hostAccess at h
  split at h
  · cases h; exact ⟨‹_›, rfl⟩
  · split at h <;> cases h

/-- The Host's turn when it answers a next state: nothing left to do, a read, a write, or one read
of a poll. -/
theorem hostTurn_cases {s t : State} (h : hostTurn s = .next t) :
    (s.prog = [] ∧ t = s) ∨
    (∃ off size name rest, s.prog = .read off size name :: rest ∧ admitted off size = true ∧
      t = (readAndLog off name s).setProg rest) ∨
    (∃ off size v rest, s.prog = .write off size v :: rest ∧ admitted off size = true ∧
      t = (memWrite off v s).setProg rest) ∨
    (∃ rest, s.prog = .poll :: rest ∧
      (((memRead 4 s).1.getLsbD 0 = true ∧ t = readAndLog 4 none s) ∨
       ((memRead 4 s).1.getLsbD 0 = false ∧ t = (readAndLog 4 none s).setProg rest))) := by
  unfold hostTurn at h
  split at h
  · cases h; exact .inl ⟨‹_›, rfl⟩
  · obtain ⟨ha, rfl⟩ := hostAccess_next h
    exact .inr (.inl ⟨_, _, _, _, ‹_›, ha, rfl⟩)
  · obtain ⟨ha, rfl⟩ := hostAccess_next h
    exact .inr (.inr (.inl ⟨_, _, _, _, ‹_›, ha, rfl⟩))
  · refine .inr (.inr (.inr ⟨_, ‹_›, ?_⟩))
    change (if (memRead 4 s).1.getLsbD 0 then _ else _) = _ at h
    split at h
    · cases h; exact .inl ⟨‹_›, rfl⟩
    · cases h; exact .inr ⟨Bool.eq_false_iff.mpr ‹_›, rfl⟩

/-! ### One step -/

/-- A step is the current turn, taken with the schedule moved on. -/
theorem step_eq_takeTurn (s : State) : step s = takeTurn (currentTurn s) (s.setSched s.sched.tail) := by
  unfold step nextTurn currentTurn
  cases h : s.sched with
  | nil =>
    have : s.setSched [] = s := by cases s; cases h; rfl
    simp [this]
  | cons t rest => rfl

/-- One more step of a run, from a step that answers a next state. -/
theorem runFor_succ {k : Nat} {s t : State} (h : step s = .next t) :
    runFor (k + 1) s = runFor k t := by rw [runFor, h, andThen]

/-- One more step of a run of the host's core. -/
theorem core_run_succ (M : Host.Core) (k : Nat) (s : M.State) : M.run (k + 1) s =
    match M.step s with
    | .next t => M.run k t
    | .fault r => .fault r
    | .refused r => .refused r := rfl

/-- A run of the model is a run of the host's core. -/
theorem runFor_eq_core (k : Nat) (s : State) : runFor k s = Host.Core.run Sys2Proof.core k s := by
  induction k generalizing s with
  | zero => rfl
  | succ k ih =>
    refine Eq.trans ?_ (core_run_succ Sys2Proof.core k s).symm
    have hc : Sys2Proof.core.step s = step s := rfl
    cases hs : step s with
    | next t => simp only [hc.trans hs]; rw [runFor_succ hs]; exact ih t
    | fault r => simp only [hc.trans hs]; rw [runFor, hs]; rfl
    | refused r => simp only [hc.trans hs]; rw [runFor, hs]; rfl

end Sys2Proof.Machine
end

