-- ==== Sys2Proof/Tests/Slice0.lean ====
section
/-! SUPPORT. The model's own tests. Expected values are those of spec/95_test_vectors.md and of the
rules' examples, or counted by hand from the rules; the witnesses at the end meet the hypotheses of
the statements. -/

namespace Sys2Proof.Tests

open Sys2Proof Sys2Proof.Machine

/-! ### Helpers -/

/-- A freshly reset block with KS_CAP = 40. -/
def small : State := State.resetWith 40#24

/-- The bank after INIT of vector V-B. -/
def bankVB : Bank := { r1 := 0x5EF70#19, r2 := 0x100003#22, r3 := 0x681DC3#23 }

/-- An initialised block with the bank of vector V-B and data 1, 0, 1, 0. -/
def ready : State :=
  { small with initDone := true, bank := bankVB, data := [true, false, true] ++ List.replicate 37 false }

/-- The same with a command word in flight. -/
def busyWith (w : Word) : State := { ready with pend := some w, busy := true }

/-- The state an outcome holds, the freshly reset one where it holds none. -/
def after (r : Host.Outcome State Fault Refusal) : State :=
  match r with
  | .next t => t
  | .fault _ => small
  | .refused _ => small

/-- The outcome is a next state. -/
def goesOn (r : Host.Outcome State Fault Refusal) : Bool :=
  match r with
  | .next _ => true
  | .fault _ => false
  | .refused _ => false

/-! ### Well-formedness: each check refuses an ill-formed term -/

theorem test_wf_gen : (Instr.gen 16777216).wf = false ∧ (Instr.gen 16777215).wf = true := by decide
theorem test_wf_encdec : (Instr.encdec 16777216).wf = false ∧ (Instr.encdec 16777215).wf = true := by
  decide
theorem test_config_wf : Config.reg1.wf = true ∧ Config.reg2.wf = true ∧ Config.reg3.wf = true := by
  decide
theorem test_config_tap_refused :
    ({ size := 19, taps := [13, 19], clockIndex := 8 } : RegConfig).wf = false ∧
    RegConfig.construct 19 [13, 19] 8 = .error .tapOutsideRegister := by decide
theorem test_config_clock_refused :
    ({ size := 19, taps := [13], clockIndex := 19 } : RegConfig).wf = false ∧
    RegConfig.construct 19 [13] 19 = .error .clockIndexOutsideRegister := by decide
theorem test_config_constructed : RegConfig.construct 19 [13, 16, 17, 18] 8 = .ok Config.reg1 := by
  decide

/-! ### Decoding: words written out from R69 to R73 and R80, R81 -/

theorem test_decode_init :
    decodeCmd 0b00000000000000000000000000000001#32 = .ok (.init false) ∧
    decodeCmd 0b00000000000000000000000100000001#32 = .ok (.init true) := by decide
theorem test_decode_gen : decodeCmd 0b00000000000000000000101000000010#32 = .ok (.gen 10) := by
  decide
theorem test_decode_gen_bit8_is_length :
    decodeCmd 0b00000000000000000000000100000010#32 = .ok (.gen 1) := by decide
theorem test_decode_encdec :
    decodeCmd 0b00000000000000000000010000000011#32 = .ok (.encdec 4) := by decide
theorem test_decode_hold : decodePort 0b000#3 = .hold ∧ decodePort 0b100#3 = .hold := by decide
theorem test_decode_clear : decodePort 0b001#3 = .clear := by decide
theorem test_decode_load : decodePort 0b110#3 = .load true ∧ decodePort 0b010#3 = .load false := by
  decide
theorem test_decode_mstep : decodePort 0b011#3 = .mstep := by decide
theorem test_decode_init_reserved :
    decodeCmd 0x00000301#32 = .error (.reservedInitBits 1#23) ∧
    decodeCmd 0x80000001#32 = .error (.reservedInitBits 0x400000#23) := by decide
theorem test_decode_reserved_op :
    decodeCmd 0#32 = .error (.reservedOp 0#8) ∧ decodeCmd 0xFF#32 = .error (.reservedOp 0xFF#8) := by
  decide
theorem test_decode_bytes :
    decodeCmdBytes [0x02, 0xE4, 0x00, 0x00, 0x01] = .ok (.gen 228, [0x01]) ∧
    decodeCmdBytes [0x02, 0xE4, 0x00] = .error .truncated := by decide
theorem test_decode_table_word :
    decodeTableWord 32 0x101 = some (.init true) ∧ decodeTableWord 32 0x201 = none ∧
    decodeTableWord 8 6 = some (.load true) ∧ decodeTableWord 8 8 = none := by decide
theorem test_encode :
    encode (.gen 228) = .cmd32 0x0000E402#32 ∧ encode (.init true) = .cmd32 0x00000101#32 ∧
    encode (.load true) = .bank3 0b110#3 := by decide

/-! ### The next step runs the word placed -/

theorem test_fetch_init : goesOn (step (State.reset.withFetchWord 32 0x101)) = true := by decide
theorem test_fetch_gen : (after (step (ready.withFetchWord 32 0x202))).ks = [true, false] := by
  decide +kernel
theorem test_fetch_load : (after (step (State.reset.withFetchWord 8 6))).bank.r2 = 1#22 := by decide
theorem test_fetch_mstep : (after (step (ready.withFetchWord 8 3))).bank =
    { r1 := 0x3DEE1#19, r2 := 0x100003#22, r3 := 0x503B87#23 } := by decide

/-! ### The bank: section 2.1, 2.2 and 2.4 of the vectors -/

theorem test_clock_tap13 :
    clock Config.reg1 0x02000#19 false = 0x04001#19 ∧ clock Config.reg1 0x02000#19 true = 0x04000#19 := by
  decide
theorem test_clock_tap7 :
    clock Config.reg3 0x000080#23 false = 0x000101#23 ∧ clock Config.reg2 0x2CB2F9#22 false = 0x1965F3#22 := by
  decide
theorem test_load : (after (exec (.load true) { small with
    bank := { r1 := 0x40000#19, r2 := 0x200000#22, r3 := 0x400000#23 } })).bank = Bank.zero := by decide
theorem test_clear : (after (exec .clear ready)).bank = Bank.zero := by decide
theorem test_hold : (after (exec .hold ready)).bank = bankVB := by decide
theorem test_mstep : (after (exec .mstep ready)).bank =
    { r1 := 0x3DEE1#19, r2 := 0x100003#22, r3 := 0x503B87#23 } ∧
    (after (exec .mstep ready)).bank.ksBit = true := by decide
theorem test_mstep_not_fixed : (after (exec .mstep { small with
    bank := { r1 := 0#19, r2 := 0#22, r3 := 0x3FF#23 } })).bank.r3 = 0x7FF#23 := by decide
theorem test_snap : bankVB.snap = 0xD03B8680001DEF70#64 := by decide

/-! ### Commands: sections 2.6 to 2.9 -/

theorem test_init_frame : (after (exec (.init true) { small with
    key := 0xEFCDAB8967452312#64, frame := 0x134#22 })).bank =
    { r1 := 0x1DA4B#19, r2 := 0x2CB2F9#22, r3 := 0x08BE5F#23 } := by decide +kernel
theorem test_init_no_frame : (after (exec (.init false) { small with
    key := 0xAAAAAAAAAAAAAAAA#64, frame := 0x3FFFFF#22 })).bank =
    { r1 := 0x5970D#19, r2 := 0x20000E#22, r3 := 0x2B1320#23 } := by decide +kernel
theorem test_gen : readReg .ksWin (after (exec (.gen 10) ready)) = 0x000001C5#32 ∧
    (after (exec (.gen 10) ready)).bank =
      { r1 := 0x5C231#19, r2 := 0x000078#22, r3 := 0x770FCD#23 } := by decide +kernel
theorem test_gen_history :
    (after (exec (.gen 3) ready)).hist =
      [0xD03B8680001DEF70#64, 0xA0770E80001BDEE1#64, 0x40EE1F00003FBDC2#64] ∧
    (after (exec (.gen 3) ready)).trace.getLast? =
      some { before := 0x40EE1F00003FBDC2#64, after := 0x81DC3F00003F7B84#64 } := by decide +kernel
theorem test_encdec : (after (exec (.encdec 4) ready)).result = List.replicate 40 false ∧
    (after (exec (.encdec 4) ready)).ks = [true, false, true, false] := by decide +kernel
theorem test_encdec_reuse : readReg .resWin (after (exec (.encdec 4)
    { ready with ks := [true, false, true, false], data := List.replicate 40 false })) = 5#32 := by
  decide +kernel
theorem test_usage_before_length :
    statusWord (after (performCommand 0xFFFFFF02#32 { small with pend := some 0#32, busy := true })) =
      0x20#32 := by decide
theorem test_illegal :
    statusWord (after (performCommand 0#32 (busyWith 0#32))) = 0x12#32 := by decide
theorem test_length : statusWord (after (performCommand 0x2902#32 (busyWith 0#32))) = 0x32#32 := by
  decide

/-! ### Accesses and reset: sections 2.10 and 2.11 -/

theorem test_write_frame :
    (memRead 0x10 (memWrite 0x10 0xFFFFFFFF#32 small)).1 = 0x003FFFFF#32 ∧
    (memRead 0x28 (memWrite 0x28 0xFFFFFFFF#32 small)).1 = 0x00FFFFFF#32 := by decide
theorem test_data_window_edge :
    (memRead 0x30 (memWrite 0x30 0xFFFFFFFF#32 { small with idx := 1#24 })).1 = 0xFF#32 ∧
    (memRead 0x30 (memWrite 0x30 0xFFFFFFFF#32 { small with idx := 2#24 })).1 = 0#32 := by
  decide +kernel
theorem test_read_only : memWrite 0x1C 1#32 small = small ∧ memWrite 0x80 0xFFFFFFFF#32 small = small ∧
    (memRead 0x40 small).1 = 0#32 ∧ (memRead 0x18 small).1 = 40#32 := by decide
theorem test_reset_prefix :
    (resetTurn 2 (busyWith 0x302#32)).trace.length = 2 ∧ (resetTurn 9 (busyWith 0x302#32)).trace.length = 3 ∧
    (resetTurn 2 ready).trace = [] ∧ (resetTurn 2 (busyWith 0x302#32)).busy = false := by decide +kernel
theorem test_wrdata : (AsmLine.wrdata [true, false, true, false]).assemble 40 =
    .ok [.write 0x28 4 0#32, .write 0x30 4 5#32] := by decide
theorem test_run : (AsmLine.run (.gen 5)).assemble 40 = .ok [.write 0 4 0x502#32, .poll] ∧
    (AsmLine.setkey [true]).assemble 40 = .error (.keyLength 1) := by decide
theorem test_end_of_run : runEnded ready = true ∧ runEnded (busyWith 0#32) = false := by decide

/-! ### Witnesses: the hypotheses of each statement are met together -/

/-- A busy block whose next scheduled turn is `t`. -/
def busyTurn (t : Turn) (w : Word) : State := { busyWith w with sched := [t] }

/-- An idle block with a host program. -/
def hosting (ops : List HostOp) : State := { ready with prog := ops }

theorem inv_ready : Inv ready where
  cyclesOfCommand _ h := by cases h
  busyIffPending := by decide
  uninitialisedEmpty := by decide
  capPositive := by decide
  keystreamFits := by decide
  historyLength := rfl
  dataLength := by decide
  resultLength := by decide
  errProduced := by decide

theorem inv_busy : Inv (busyTurn .host 0x502#32) where
  cyclesOfCommand _ h := by cases h
  busyIffPending := by decide
  uninitialisedEmpty := by decide
  capPositive := by decide
  keystreamFits := by decide
  historyLength := rfl
  dataLength := by decide
  resultLength := by decide
  errProduced := by decide

theorem inv_hosting (ops : List HostOp) : Inv (hosting ops) :=
  ⟨inv_ready.1, inv_ready.2, inv_ready.3, inv_ready.4, inv_ready.5, inv_ready.6, inv_ready.7,
   inv_ready.8, fun _ h => by cases h⟩

theorem consistent_ready : HistoryConsistent ready := by
  constructor
  · rfl
  · intro k h; exact absurd h (Nat.not_lt_zero k)
  · intro k h; exact absurd h (Nat.not_lt_zero (k + 1))

theorem witness_EveryStepKeepsInvariant :
    Inv (busyTurn .host 0x502#32) ∧ ∃ t, step (busyTurn .host 0x502#32) = .next t :=
  ⟨inv_busy, _, rfl⟩

theorem witness_EveryStepKeepsHistoryConsistent :
    HistoryConsistent ready ∧ ∃ t, step ready = .next t := ⟨consistent_ready, _, rfl⟩

theorem witness_PolledCommandWritesAreNeverLost :
    issueDiscipline (hosting [.write 0 4 0x502#32, .poll]) = true ∧
    (∃ t, step (hosting [.write 0 4 0x502#32, .poll]) = .next t) ∧
    (hosting [.write 0 4 0x502#32, .poll]).prog = .write 0 4 0x502#32 :: [.poll] ∧
    (HostOp.write 0 4 0x502#32).isCommandWrite = true := ⟨by decide, ⟨_, rfl⟩, rfl, by decide⟩

theorem witness_DecodeEncodeRoundTrip :
    (Instr.gen 16777215).wf = true ∧ (Instr.encdec 0).wf = true ∧ Instr.mstep.wf = true := by decide

theorem witness_EngineStepPerformsDecodedCommand :
    ((busyTurn .engine 0x502#32).busy = true ∧ (busyTurn .engine 0x502#32).pend = some 0x502#32 ∧
      decodeCmd 0x502#32 = .ok (.gen 5) ∧ (busyTurn .engine 0x502#32).sched = .engine :: []) ∧
    ((busyWith 0x101#32).busy = true ∧ (busyWith 0x101#32).pend = some 0x101#32 ∧
      decodeCmd 0x101#32 = .ok (.init true) ∧ (busyWith 0x101#32).sched = []) := by decide

theorem witness_EngineStepOnIllegalWord :
    (busyTurn .engine 0x201#32).busy = true ∧ (busyTurn .engine 0x201#32).pend = some 0x201#32 ∧
    decodeCmd 0x201#32 = .error (.reservedInitBits 1#23) ∧
    (busyTurn .engine 0x201#32).sched = .engine :: [] := by decide

theorem witness_IdleEngineTurnPasses :
    ({ ready with sched := [.engine] } : State).busy = false ∧
    ({ ready with sched := [.engine] } : State).sched = .engine :: [] := by decide

/-- `gen 2` in flight with one of its two bank cycles driven, and a bank cycle next. -/
def halfway : State :=
  { busyTurn .bankCycle 0x202#32 with bank := bankVB.mstep, cycles := some { start := bankVB, left := [3#3] } }

/-- A block with PEND = w and no bank cycle of it begun. -/
def begun (w : Word) : State := busyTurn .bankCycle w

theorem witness_BankCycleRunsPortOperation :
    ({ ready with sched := [.bankCycle] } : State).sched = .bankCycle :: [] ∧
    activeCommand ready = none ∧ activeCommand halfway = some (.gen 2) ∧
    halfway.cycles = some { start := bankVB, left := [3#3] } ∧
    (activeCommand ({ halfway with cycles := some { start := bankVB, left := [] } } : State) =
      some (.gen 2)) ∧
    ((begun 0x202#32).cycles = none ∧ portSequence (begun 0x202#32) (.gen 2) = 3#3 :: [3#3]) ∧
    ((begun 0x002#32).cycles = none ∧ activeCommand (begun 0x002#32) = some (.gen 0) ∧
      portSequence (begun 0x002#32) (.gen 0) = []) := by decide

theorem inv_halfway : Inv halfway :=
  ⟨inv_busy.1, by decide, inv_busy.3, inv_busy.4, inv_busy.5, inv_busy.6, inv_busy.7, inv_busy.8,
   fun c h => by cases h; exact ⟨.gen 2, [3#3], by decide⟩⟩

theorem test_cycles_then_engine :
    after (step { halfway with sched := [.engine] }) = after (exec (.gen 2) ready) := by decide +kernel
theorem test_illegal_drives_nothing : after (step (begun 0x201#32)) = busyWith 0x201#32 ∧
    after (step (begun 0x2902#32)) = busyWith 0x2902#32 := by decide

theorem witness_ClockShiftsTowardOutputEnd : 0 < 19 ∧ 0 < 18 ∧ 18 < 19 := by decide

theorem witness_MajorityStepResult :
    true = ready.bank.r1.getLsbD 8 ∧ false = ready.bank.r2.getLsbD 10 ∧
    true = ready.bank.r3.getLsbD 10 ∧
    true = ((true && false) || (true && true) || (false && true)) := by decide

theorem witness_FixedPointsOfMajorityStep :
    exec .mstep ({ ready with bank := { r1 := 0x40100#19, r2 := 0#22, r3 := 0#23 } } : State) =
      .next { ready with bank := { r1 := 0x40100#19, r2 := 0#22, r3 := 0#23 } } := by rfl

theorem witness_LoadingIsLinear : [true, false].length = [false, false].length := rfl

theorem witness_ZeroKeyGivesZeroKeystream :
    (small.key = 0#64 ∧ (true = true → small.frame = 0#22)) ∧
    (({ small with initDone := true } : State).bank = { r1 := 0#19, r2 := 0#22, r3 := 0#23 } ∧
      ({ small with initDone := true } : State).initDone = true ∧ 40 ≤ small.cap.toNat) := by decide

theorem witness_EqualKeysGiveEqualKeystreams :
    small.key = ready.key ∧ (true = true → small.frame = ready.frame) ∧ 2 ≤ small.cap.toNat ∧
    2 ≤ ready.cap.toNat ∧
    (∃ s1 s2, exec (.init true) small = .next s1 ∧ exec (.gen 2) s1 = .next s2) ∧
    (∃ t1 t2, exec (.init true) ready = .next t1 ∧ exec (.gen 2) t1 = .next t2) :=
  ⟨by decide, by decide, by decide, by decide, ⟨_, _, rfl, rfl⟩, ⟨_, _, rfl, rfl⟩⟩

theorem witness_GenGeneratesKeystream :
    small.initDone = false ∧ (ready.initDone = true ∧ ready.cap.toNat < 41) ∧
    (ready.initDone = true ∧ 40 ≤ ready.cap.toNat) := by decide

theorem witness_GenRestartsBufferContinuesRegisters :
    ready.initDone = true ∧ 15 + 25 ≤ ready.cap.toNat ∧
    (∃ t u, exec (.gen 15) ready = .next t ∧ exec (.gen 25) t = .next u) ∧
    ∃ v, exec (.gen (15 + 25)) ready = .next v :=
  ⟨by decide, by decide, ⟨_, _, rfl, rfl⟩, ⟨_, rfl⟩⟩

theorem witness_GenAtItsBoundaries : ready.initDone = true := rfl

theorem witness_EncdecMasksData :
    small.initDone = false ∧ (ready.initDone = true ∧ ready.cap.toNat < 41) ∧
    (ready.initDone = true ∧ 0 ≤ ready.cap.toNat ∧ 0 ≤ ready.ks.length) ∧
    (({ ready with ks := List.replicate 4 true } : State).ks.length = 4 ∧ 4 ≤ ready.cap.toNat) ∧
    (ready.initDone = true ∧ 40 ≤ ready.cap.toNat ∧ ready.ks.length < 40) := by decide

theorem witness_EncdecTwiceRecoversData :
    ready.initDone = true ∧ 4 ≤ ready.cap.toNat ∧
    ∃ t, exec (.encdec 4) ready = .next t ∧
      ∃ u, exec (.encdec 4) { t with data := t.result } = .next u :=
  ⟨by decide, by decide, _, rfl, _, rfl⟩

theorem witness_CheckPriority :
    decodeCmd 0x4#32 = .error (.reservedOp 4#8) ∧
    (decodeCmd 0xFFFFFF02#32 = .ok (.gen 16777215) ∧ small.initDone = false) ∧
    (decodeCmd 0x2903#32 = .ok (.encdec 41) ∧ ready.initDone = true ∧ ready.cap.toNat < 41) := by
  decide

theorem witness_FailedCommandChangesOnlyErr :
    ∃ t, performCommand 0x2902#32 (busyWith 0x2902#32) = .next t ∧ t.err ≠ 0#4 :=
  ⟨_, rfl, by decide⟩

theorem witness_RepeatedFailureGivesSameCode :
    ∃ t, performCommand 0x502#32 small = .next t ∧ t.err ≠ 0#4 := ⟨_, rfl, by decide⟩

theorem witness_ErrChangesOnlyWhenEngineActs :
    ∃ t, step (busyTurn .host 0x502#32) = .next t ∧
      (currentTurn (busyTurn .host 0x502#32)).isReset = false ∧
      (currentTurn (busyTurn .host 0x502#32) = .engine → (busyTurn .host 0x502#32).busy = false) :=
  ⟨_, rfl, rfl, by decide⟩

theorem witness_NoUsageErrorAfterInit :
    (busyTurn .engine 0x2902#32).initDone = true ∧ (busyTurn .engine 0x2902#32).err ≠ 2#4 ∧
    (∃ t, step (busyTurn .engine 0x2902#32) = .next t) ∧
    (currentTurn (busyTurn .engine 0x2902#32)).isReset = false :=
  ⟨by decide, by decide, ⟨_, rfl⟩, by decide⟩

theorem witness_InitDoneSetByInitClearedByReset :
    ready.busy = false ∧
    (∃ t, step (busyTurn (.reset 0) 0x502#32) = .next t ∧
      (busyTurn (.reset 0) 0x502#32).initDone = true ∧ t.initDone = false) ∧
    (∃ t, step ({ small with pend := some 1#32, busy := true } : State) = .next t ∧
      small.initDone = false ∧ t.initDone = true) :=
  ⟨rfl, ⟨_, rfl, rfl, rfl⟩, ⟨_, rfl, rfl, rfl⟩⟩

theorem witness_HostTurnNeverTouchesCipherState :
    currentTurn (hosting [.write 8 4 7#32]) = .host ∧
    ∃ t, step (hosting [.write 8 4 7#32]) = .next t := ⟨by decide, _, rfl⟩

theorem witness_CommandsNeverWriteStagingRegisters : ∃ t, exec (.encdec 4) ready = .next t := ⟨_, rfl⟩

theorem witness_CapacityIsConstantAndTraceOnlyGrows :
    ∃ t, step (busyTurn .engine 0x502#32) = .next t ∧
      (currentTurn (busyTurn .engine 0x502#32)).isReset = false := ⟨_, rfl, by decide⟩

theorem witness_ResetTurnRestoresResetState :
    (busyTurn (.reset 3) 0x502#32).sched = .reset 3 :: [] ∧ (busyTurn (.reset 3) 0x502#32).busy = true ∧
    (busyTurn (.reset 3) 0x502#32).pend = some 0x502#32 ∧
    (∃ t, performCommand 0x502#32 { busyTurn (.reset 3) 0x502#32 with
      bank := startBank (busyTurn (.reset 3) 0x502#32), cycles := none } = .next t) ∧
    ({ ready with sched := [.reset 3] } : State).busy = false :=
  ⟨rfl, rfl, rfl, ⟨_, rfl⟩, rfl⟩

theorem witness_EngineActsWithinTheSchedule :
    Inv halfway ∧ halfway.busy = true ∧ halfway.pend = some 0x202#32 ∧
    halfway.prog.all HostOp.isAdmitted = true := ⟨inv_halfway, rfl, rfl, rfl⟩

/-- The hypotheses of CommandEqualsItsBankCycles at one state, word and instruction. -/
def cyclesPremises (s : State) (w : Word) (i : Instr) : Prop :=
  s.busy = true ∧ s.pend = some w ∧ s.cycles = none ∧ decodeCmd w = .ok i ∧
    ∃ t, exec i s = .next t ∧ t.err = 0#4

theorem witness_CommandEqualsItsBankCycles :
    cyclesPremises (busyWith 0x101#32) 0x101#32 (.init true) ∧
    cyclesPremises (busyWith 0x502#32) 0x502#32 (.gen 5) ∧
    cyclesPremises (busyWith 0x403#32) 0x403#32 (.encdec 4) ∧
    cyclesPremises (busyWith 0x003#32) 0x003#32 (.encdec 0) :=
  ⟨⟨rfl, rfl, rfl, by decide, _, rfl, by decide⟩, ⟨rfl, rfl, rfl, by decide, _, rfl, by decide⟩,
   ⟨rfl, rfl, rfl, by decide, _, rfl, by decide⟩, ⟨rfl, rfl, rfl, by decide, _, rfl, by decide⟩⟩

theorem witness_IdleReadReturnsRegister :
    Inv ready ∧ ready.busy = false ∧ 0xFC % 4 = 0 ∧ 0xFC < 256 ∧ 0x40 ≤ 0x40 := by
  exact ⟨inv_ready, rfl, by decide, by decide, by decide⟩

theorem witness_BusyReadsAreFreeValues :
    (busyWith 0x502#32).busy = true ∧ 30 < 31 ∧ 0x40 ≤ 0xFC ∧ 0xFC < 256 ∧
    0x3C % 4 = 0 ∧ 0x3C < 0x40 ∧ 0x3C ≠ 0x04 ∧ 0x3C ≠ 0x18 := by decide

theorem witness_ReadsHaveNoSideEffects :
    currentTurn (busyTurn .host 0x502#32) = .host ∧
    ({ busyTurn .host 0x502#32 with prog := [.read 0xFC 4 none] } : State).prog =
      .read 0xFC 4 none :: [] ∧ 0xFC % 4 = 0 ∧ 0xFC < 256 ∧ ready.busy = false := by decide

theorem witness_BusyWritesAreIgnored :
    ({ busyTurn .host 0x502#32 with prog := [.write 0 4 1#32] } : State).busy = true ∧
    currentTurn ({ busyTurn .host 0x502#32 with prog := [.write 0 4 1#32] } : State) = .host ∧
    ({ busyTurn .host 0x502#32 with prog := [.write 0 4 1#32] } : State).prog = .write 0 4 1#32 :: [] ∧
    0 % 4 = 0 ∧ 0 < 256 := by decide

theorem witness_WritesStoreWritableBits :
    (busyWith 0x502#32).busy = true ∧ ready.busy = false ∧
    (31 < 32 ∧ 32 * ready.idx.toNat + 31 < ready.cap.toNat ∧ 32 * ready.idx.toNat + 31 < ready.data.length) ∧
    (32 / 32 ≠ ready.idx.toNat ∨ ready.cap.toNat ≤ 32) ∧
    (0xFC % 4 = 0 ∧ 0xFC < 256 ∧ 0xFC ∉ [0x00, 0x08, 0x0C, 0x10, 0x28, 0x30]) := by decide

theorem witness_WritableRegistersReadBack : Inv ready ∧ ready.busy = false ∧ 31 < 32 :=
  ⟨inv_ready, rfl, by decide⟩

theorem witness_OnlyAlignedWordAccessesRun :
    currentTurn (hosting [.read 0xFE 2 none]) = .host ∧
    (hosting [.read 0xFE 2 none]).prog = .read 0xFE 2 none :: [] ∧
    (0xFE < 256 ∧ ¬ (2 = 4 ∧ 0xFE % 4 = 0)) ∧ 256 ≤ 0x100 ∧ (0xFC < 256 ∧ 4 = 4 ∧ 0xFC % 4 = 0) := by
  decide

theorem test_stuck_and_outside :
    step (hosting [.read 0xFE 2 none]) = .fault (.stuckAccess 0xFE 2) ∧
    step (hosting [.write 0x100 4 0#32]) = .refused (.outsideWindow 0x100) := ⟨rfl, rfl⟩

theorem witness_PollWaitsForBusyClear :
    (currentTurn ({ busyTurn .host 0x502#32 with prog := [.poll] } : State) = .host ∧
      ({ busyTurn .host 0x502#32 with prog := [.poll] } : State).busy = true) ∧
    (currentTurn (hosting [.poll]) = .host ∧ (hosting [.poll]).prog = .poll :: [] ∧
      (hosting [.poll]).busy = false) := by decide

theorem witness_SetkeyAndSetframeKeepStringOrder :
    ready.busy = false ∧
    (∃ ops, (AsmLine.setkey (List.replicate 64 true)).assemble 40 = .ok ops) ∧
    (∃ ops, (AsmLine.setframe (List.replicate 22 true)).assemble 40 = .ok ops) ∧ 63 < 64 ∧ 21 < 22 :=
  ⟨rfl, ⟨_, rfl⟩, ⟨_, rfl⟩, by decide, by decide⟩

theorem witness_WrdataWritesStringInOrder :
    Inv ready ∧ ready.busy = false ∧
    (∃ ops, (AsmLine.wrdata (List.replicate 40 true)).assemble ready.ksCap = .ok ops) ∧
    (List.replicate 33 true).length ≤ 63 ∧ 63 < 32 * ((33 + 31) / 32) :=
  ⟨inv_ready, rfl, ⟨_, rfl⟩, by decide, by decide⟩

/-- A CMD write and a poll, on a schedule that reads before the Engine has acted. -/
def polling : State :=
  { hosting [.write 0 4 0x502#32, .poll] with sched := [.host, .host, .bankCycle, .engine, .host] }

theorem witness_PolledCommandIsPerformed :
    Inv polling ∧ polling.busy = false ∧
    polling.prog = .write 0x00 4 0x502#32 :: .poll :: [] ∧
    ∀ turn ∈ polling.sched, turn.isReset = false :=
  ⟨⟨inv_ready.1, inv_ready.2, inv_ready.3, inv_ready.4, inv_ready.5, inv_ready.6, inv_ready.7,
    inv_ready.8, fun _ h => by cases h⟩, rfl, rfl, by decide⟩

theorem witness_OnlyCommandsMoveTheBank :
    ∃ t, step halfway = .next t ∧ t.bank ≠ halfway.bank ∧ (currentTurn halfway).isReset = false :=
  ⟨_, rfl, by decide, rfl⟩

theorem witness_BusyEndsOnlyByEngineOrReset :
    (∃ t, step (busyTurn .engine 0x502#32) = .next t ∧ t.busy = false) ∧
    (∃ t, step ({ halfway with prog := [.poll] } : State) = .next t ∧ t.busy = true) :=
  ⟨⟨_, rfl, rfl⟩, ⟨_, rfl, rfl⟩⟩

end Sys2Proof.Tests
end

/-! Every step of every agent keeps `Inv`: what each update of State, each meaning and each turn
does to the invariants. -/

namespace Sys2Proof.Machine

section Invariant

variable {s t : State}

/-! ### Bank cycles -/

theorem driveAll_concat (ws : List PortWord) (w : PortWord) (b : Bank) :
    b.driveAll (ws ++ [w]) = (b.driveAll ws).drive w := by simp [Bank.driveAll]

/-- No bank cycle has begun in an idle block: begun cycles are those of a command in flight. -/
theorem Inv.cycles_of_idle (h : Inv s) (hb : s.busy = false) : s.cycles = none := by
  cases hc : s.cycles with
  | none => rfl
  | some c =>
    obtain ⟨i, -, ha, -⟩ := h.cyclesOfCommand c hc
    rw [activeCommand_idle hb] at ha
    cases ha

/-- What is left of the command in flight, begun or not, completes its port words, and the bank is
where the words driven so far take it. -/
theorem Inv.cyclesOf_spec (h : Inv s) {i : Instr} (ha : activeCommand s = some i) :
    ∃ done, portSequence s i = done ++ (cyclesOf i s).left ∧
      s.bank = (cyclesOf i s).start.driveAll done := by
  cases hc : s.cycles with
  | none => exact ⟨[], by simp [cyclesOf, hc], by simp [cyclesOf, hc, Bank.driveAll]⟩
  | some c =>
    obtain ⟨j, done, hj, hseq, hbank⟩ := h.cyclesOfCommand c hc
    obtain rfl : i = j := Option.some.inj (ha.symm.trans hj)
    exact ⟨done, by simp [cyclesOf, hc, hseq], by simp [cyclesOf, hc, hbank]⟩

/-! ### Updates of State -/

theorem inv_setSched (h : Inv s) (l : List Turn) : Inv (s.setSched l) := { h with }

theorem inv_setProg (h : Inv s) (l : List HostOp) : Inv (s.setProg l) := { h with }

theorem inv_logRead (h : Inv s) (r : ReadRecord) : Inv (s.logRead r) := { h with }

theorem inv_countDraw (h : Inv s) : Inv s.countDraw := { h with }

theorem inv_setIdx (h : Inv s) (i : BitVec 24) : Inv (s.setIdx i) := { h with }

theorem inv_setErr (h : Inv s) {e : BitVec 4} (he : e.toNat ≤ 3) : Inv (s.setErr e) :=
  { h with errProduced := he }

theorem inv_setData (h : Inv s) {d : List Bool} (hd : d.length = s.ksCap) : Inv (s.setData d) :=
  { h with dataLength := hd }

theorem inv_setResult (h : Inv s) {r : List Bool} (hr : r.length = s.ksCap) :
    Inv (s.setResult r) :=
  { h with resultLength := hr }

/-! Without begun bank cycles the operands, the bank and the command in flight may change. -/

theorem inv_setKey (h : Inv s) (hc : s.cycles = none) (k : BitVec 64) : Inv (s.setKey k) :=
  { h with cyclesOfCommand := by simp [hc] }

theorem inv_setFrame (h : Inv s) (hc : s.cycles = none) (f : BitVec 22) : Inv (s.setFrame f) :=
  { h with cyclesOfCommand := by simp [hc] }

theorem inv_setBank (h : Inv s) (hc : s.cycles = none) (b : Bank) : Inv (s.setBank b) :=
  { h with cyclesOfCommand := by simp [hc] }

theorem inv_issue (h : Inv s) (hc : s.cycles = none) (w : Word) : Inv (s.issue w) :=
  { h with
    busyIffPending := by simp
    cyclesOfCommand := by simp [hc] }

theorem inv_retire (h : Inv s) (hc : s.cycles = none) : Inv s.retire :=
  { h with
    busyIffPending := by simp
    cyclesOfCommand := by simp [hc] }

/-! ### The meanings -/

/-- GEN's body in closed form: both buffers hold exactly the n steps from the present bank. -/
theorem genBody_eq (n : Nat) (s : State) :
    genBody n s = { s with
      bank := Bank.mstep^[n] s.bank
      ks := (List.range n).map (fun j => (Bank.mstep^[j + 1] s.bank).ksBit)
      hist := (List.range n).map (fun j => (Bank.mstep^[j] s.bank).snap)
      trace := s.trace ++ (List.range n).map (fun j =>
        { before := (Bank.mstep^[j] s.bank).snap, after := (Bank.mstep^[j + 1] s.bank).snap }) } := by
  rw [genBody, genSteps_eq]
  rfl

@[simp] theorem genBody_cycles (n : Nat) (s : State) : (genBody n s).cycles = s.cycles := by
  rw [genBody_eq]

@[simp] theorem genBody_ksCap (n : Nat) (s : State) : (genBody n s).ksCap = s.ksCap := by
  rw [genBody_eq]
  rfl

@[simp] theorem encdecBody_cycles (n : Nat) (s : State) : (encdecBody n s).cycles = s.cycles := by
  simp only [encdecBody, State.setResult_cycles]
  split
  · exact genBody_cycles n s
  · rfl

theorem checkedCommand_cycles {n : Nat} {body : State → State} (s : State)
    (hbody : (body s).cycles = s.cycles) : (checkedCommand n body s).cycles = s.cycles := by
  obtain ⟨-, h⟩ | ⟨-, -, h⟩ | ⟨-, -, h⟩ := checkedCommand_cases n body s <;> simp [h, hbody]

/-- No meaning touches the sequencer's progress. -/
theorem exec_cycles {i : Instr} (he : exec i s = .next t) : t.cycles = s.cycles := by
  cases i with
  | gen n => cases he; exact checkedCommand_cycles s (genBody_cycles n s)
  | encdec n => cases he; exact checkedCommand_cycles s (encdecBody_cycles n s)
  | _ => cases he; rfl

theorem inv_genBody (h : Inv s) (hc : s.cycles = none) {n : Nat} (hi : s.initDone = true)
    (hn : n ≤ s.ksCap) : Inv (genBody n s) := by
  rw [genBody_eq]
  exact { h with
    keystreamFits := by simpa [State.ksLen, State.ksCap] using hn
    historyLength := by simp [State.ksLen]
    uninitialisedEmpty := by simp [hi]
    cyclesOfCommand := by simp [hc] }

theorem inv_encdecBody (h : Inv s) (hc : s.cycles = none) {n : Nat} (hi : s.initDone = true)
    (hn : n ≤ s.ksCap) : Inv (encdecBody n s) := by
  unfold encdecBody
  split
  · exact inv_setResult (inv_genBody h hc hi hn) (by simp)
  · exact inv_setResult h (by simp)

theorem inv_initBody (h : Inv s) (hc : s.cycles = none) (fe : Bool) : Inv (initBody fe s) :=
  { h with
    keystreamFits := Nat.zero_le _
    historyLength := rfl
    uninitialisedEmpty := by simp [initBody]
    cyclesOfCommand := by simp [initBody, hc] }

theorem inv_checkedCommand (h : Inv s) {n : Nat} {body : State → State}
    (hbody : s.initDone = true → n ≤ s.ksCap → Inv (body s)) : Inv (checkedCommand n body s) := by
  obtain ⟨-, hres⟩ | ⟨-, -, hres⟩ | ⟨hi, hn, hres⟩ := checkedCommand_cases n body s
  · exact hres ▸ inv_setErr h (by decide)
  · exact hres ▸ inv_setErr h (by decide)
  · exact hres ▸ inv_setErr (hbody hi hn) (by decide)

/-- Every meaning keeps the invariants where no bank cycle has begun. -/
theorem inv_exec (h : Inv s) (hc : s.cycles = none) {i : Instr} (he : exec i s = .next t) :
    Inv t := by
  cases i with
  | init fe => cases he; exact inv_setErr (inv_initBody h hc fe) (by decide)
  | gen n => cases he; exact inv_checkedCommand h (inv_genBody h hc)
  | encdec n => cases he; exact inv_checkedCommand h (inv_encdecBody h hc)
  | hold => cases he; exact h
  | clear => cases he; exact inv_setBank h hc _
  | load din => cases he; exact inv_setBank h hc _
  | mstep => cases he; exact inv_setBank h hc _

/-! ### The turns -/

theorem inv_commandStart (h : Inv s) : Inv (commandStart s) :=
  { h with cyclesOfCommand := by simp [commandStart] }

theorem inv_performCommand (h : Inv s) (hc : s.cycles = none) {w : Word}
    (hp : performCommand w s = .next t) : Inv t := by
  obtain ⟨i, u, -, hu, hres⟩ | ⟨-, -, hres⟩ := performCommand_cases w s
  · cases hres.symm.trans hp
    exact inv_retire (inv_exec h hc hu) ((exec_cycles hu).trans hc)
  · cases hres.symm.trans hp
    exact inv_retire (inv_setErr h (by decide)) hc

theorem inv_engineTurn (h : Inv s) (he : engineTurn s = .next t) : Inv t := by
  obtain ⟨-, hres⟩ | ⟨w, -, -, hres⟩ | ⟨-, -, hres⟩ := engineTurn_cases s
  · cases hres.symm.trans he
    exact h
  · exact inv_performCommand (inv_commandStart h) rfl (hres.symm.trans he)
  · cases hres.symm.trans he

theorem inv_readAndLog (h : Inv s) (off : Nat) (name : Option String) :
    Inv (readAndLog off name s) := by
  refine inv_logRead ?_ _
  obtain hres | ⟨-, hres⟩ := memRead_state off s
  · rwa [hres]
  · rw [hres]; exact inv_countDraw h

theorem inv_memWrite (h : Inv s) (off : Nat) (v : Word) : Inv (memWrite off v s) := by
  obtain hres | ⟨hb, -, hres⟩ | ⟨hb, -, ⟨k, hres⟩ | ⟨f, hres⟩ | ⟨i, hres⟩ | hres⟩ :=
    memWrite_cases off v s
  · rwa [hres]
  · rw [hres]; exact inv_issue h (h.cycles_of_idle hb) v
  · rw [hres]; exact inv_setKey h (h.cycles_of_idle hb) k
  · rw [hres]; exact inv_setFrame h (h.cycles_of_idle hb) f
  · rw [hres]; exact inv_setIdx h i
  · rw [hres]; exact inv_setData h (by simp [h.dataLength])

theorem inv_hostTurn (h : Inv s) (ht : hostTurn s = .next t) : Inv t := by
  obtain ⟨-, rfl⟩ | ⟨off, -, name, rest, -, -, rfl⟩ | ⟨off, -, v, rest, -, -, rfl⟩ |
    ⟨rest, -, ⟨-, rfl⟩ | ⟨-, rfl⟩⟩ := hostTurn_cases ht
  · exact h
  · exact inv_setProg (inv_readAndLog h off name) rest
  · exact inv_setProg (inv_memWrite h off v) rest
  · exact inv_readAndLog h 4 none
  · exact inv_setProg (inv_readAndLog h 4 none) rest

theorem inv_resetTurn (h : Inv s) (emitted : Nat) : Inv (resetTurn emitted s) where
  capPositive := h.capPositive
  busyIffPending := by simp [resetTurn, State.resetWith]
  keystreamFits := Nat.zero_le _
  historyLength := rfl
  dataLength := List.length_replicate
  resultLength := List.length_replicate
  errProduced := Nat.zero_le _
  uninitialisedEmpty _ := rfl
  cyclesOfCommand _ hc := by cases hc

/-- A bank cycle moves one word from what is left to what is done, and the bank with it. -/
theorem inv_bankCycleTurn (h : Inv s) (hb : bankCycleTurn s = .next t) : Inv t := by
  obtain hres | ⟨i, w, rest, ha, hl, hres⟩ := bankCycleTurn_cases s
  · cases hres.symm.trans hb
    exact h
  · cases hres.symm.trans hb
    obtain ⟨done, hseq, hbank⟩ := h.cyclesOf_spec ha
    have hdriven : portSequence s i = (done ++ [w]) ++ rest := by simp [hseq, hl]
    have hmoved : s.bank.drive w = (cyclesOf i s).start.driveAll (done ++ [w]) := by
      rw [driveAll_concat, ← hbank]
    exact { h with
      cyclesOfCommand := fun c hc => by
        cases hc
        exact ⟨i, done ++ [w], ha, hdriven, hmoved⟩ }

theorem inv_takeTurn (h : Inv s) {turn : Turn} (ht : takeTurn turn s = .next t) : Inv t := by
  cases turn with
  | host => exact inv_hostTurn h ht
  | engine => exact inv_engineTurn h ht
  | reset emitted => cases ht; exact inv_resetTurn h emitted
  | bankCycle => exact inv_bankCycleTurn h ht

end Invariant

/-- Settles O3: a step is one turn of one agent, and each of the four turns keeps `Inv`. -/
theorem everyStepKeepsInvariant : Obligations.EveryStepKeepsInvariant := by
  intro s t h hstep
  rw [step_eq_takeTurn] at hstep
  exact inv_takeTurn (inv_setSched h _) hstep

end Sys2Proof.Machine

/-! The two forms of a snapshot (R23), the state after reset (R45), the read and write rules of an
idle block (R58, R59), what each turn does to the cipher state (R15, R20, R31, R38), and the
statements of spec/10_state.md that follow. -/

namespace Sys2Proof.Machine

section Snapshots

/-! ### Snapshots -/

/-- A bit of the packed form, by the register its position lies in. -/
theorem snap_getLsbD (b : Bank) (k : Nat) : b.snap.getLsbD k =
    if k < 19 then b.r1.getLsbD k
    else if k - 19 < 22 then b.r2.getLsbD (k - 19) else b.r3.getLsbD (k - 19 - 22) := by
  change (b.r3 ++ b.r2 ++ b.r1 : BitVec (23 + 22 + 19)).getLsbD k = _
  rw [BitVec.getLsbD_append, BitVec.getLsbD_append]

theorem snap_getLsbD_r1 (b : Bank) {j : Nat} (h : j < 19) : b.snap.getLsbD j = b.r1.getLsbD j := by
  rw [snap_getLsbD, if_pos h]

theorem snap_getLsbD_r2 (b : Bank) {j : Nat} (h : j < 22) :
    b.snap.getLsbD (19 + j) = b.r2.getLsbD j := by
  rw [snap_getLsbD, if_neg (by omega), Nat.add_sub_cancel_left, if_pos h]

theorem snap_getLsbD_r3 (b : Bank) (j : Nat) : b.snap.getLsbD (41 + j) = b.r3.getLsbD j := by
  rw [snap_getLsbD, if_neg (by omega), if_neg (by omega)]
  congr 1
  omega

/-- Two banks are equal when their registers agree bit by bit. -/
theorem bank_eq_of_getLsbD {b c : Bank} (h1 : ∀ j, j < 19 → b.r1.getLsbD j = c.r1.getLsbD j)
    (h2 : ∀ j, j < 22 → b.r2.getLsbD j = c.r2.getLsbD j)
    (h3 : ∀ j, j < 23 → b.r3.getLsbD j = c.r3.getLsbD j) : b = c := by
  cases b; cases c
  simp only [Bank.mk.injEq]
  exact ⟨BitVec.eq_of_getLsbD_eq h1, BitVec.eq_of_getLsbD_eq h2, BitVec.eq_of_getLsbD_eq h3⟩

@[simp] theorem ofSnap_snap (b : Bank) : Bank.ofSnap b.snap = b := by
  apply bank_eq_of_getLsbD <;> intro j hj
  · simp [Bank.ofSnap, hj, snap_getLsbD_r1]
  · simp [Bank.ofSnap, hj, snap_getLsbD_r2]
  · simp [Bank.ofSnap, hj, snap_getLsbD_r3]

/-- Every position of the packed form lies in R1, in R2 or in R3. -/
theorem snapshot_position_cases {k : Nat} (h : k < 64) :
    k < 19 ∨ (∃ j, j < 22 ∧ k = 19 + j) ∨ (∃ j, j < 23 ∧ k = 41 + j) := by
  by_cases h1 : k < 19
  · exact .inl h1
  · by_cases h2 : k < 41
    · exact .inr (.inl ⟨k - 19, by omega, by omega⟩)
    · exact .inr (.inr ⟨k - 41, by omega, by omega⟩)

@[simp] theorem snap_ofSnap (w : Snapshot) : (Bank.ofSnap w).snap = w := by
  apply BitVec.eq_of_getLsbD_eq
  intro k hk
  obtain h | ⟨j, h, rfl⟩ | ⟨j, h, rfl⟩ := snapshot_position_cases hk
  · simp [snap_getLsbD_r1, Bank.ofSnap, h]
  · simp [snap_getLsbD_r2, Bank.ofSnap, h]
  · simp [snap_getLsbD_r3, Bank.ofSnap, h]

theorem snap_injective : Function.Injective Bank.snap :=
  Function.LeftInverse.injective ofSnap_snap

theorem bitstring_injective {n : Nat} : Function.Injective (bitstring (n := n)) := by
  intro r q h
  apply BitVec.eq_of_getLsbD_eq
  intro j _
  rw [← bitstring_getD, ← bitstring_getD, h]

theorem mapping_injective : Function.Injective Bank.mapping := by
  rintro ⟨p1, p2, p3⟩ ⟨q1, q2, q3⟩ h
  simp only [Bank.mapping, List.cons.injEq, Prod.mk.injEq, true_and, and_true] at h
  obtain ⟨h1, h2, h3⟩ := h
  rw [bitstring_injective h1, bitstring_injective h2, bitstring_injective h3]

end Snapshots

section Reset

/-! ### The state after reset -/

/-- The open capacity in terms of the free number behind it (R6). -/
theorem config_ksCap_toNat : Config.ksCap.toNat = Config.ksCapChoice % 16777215 + 1 := by
  rw [Config.ksCap, BitVec.toNat_ofNat]
  omega

theorem inv_resetWith {cap : BitVec 24} (h : 1 ≤ cap.toNat) : Inv (State.resetWith cap) where
  capPositive := h
  busyIffPending := by simp [State.resetWith]
  keystreamFits := Nat.zero_le _
  historyLength := rfl
  dataLength := List.length_replicate
  resultLength := List.length_replicate
  errProduced := Nat.zero_le _
  uninitialisedEmpty _ := rfl
  cyclesOfCommand _ hc := by cases hc

/-- An empty keystream with an empty history is consistent. -/
theorem historyConsistent_of_empty {s : State} (hks : s.ks = []) (hhist : s.hist = []) :
    HistoryConsistent s where
  sameLength := by simp [State.ksLen, hks, hhist]
  outputOfStep := by simp [State.ksLen, hks]
  nextSnapshot := by simp [State.ksLen, hks]

end Reset

section HostWindow

variable {s : State}

/-! ### Reads and writes of an idle block -/

theorem ofOffset_offset (r : HostReg) : HostReg.ofOffset r.offset = some r := by cases r <;> rfl

/-- No register stands above HIST_HI (R32). -/
theorem ofOffset_unmapped {off : Nat} (h : 0x40 ≤ off) : HostReg.ofOffset off = none := by
  refine List.find?_eq_none.mpr fun r _ => ?_
  have : r.offset < 0x40 := by cases r <;> decide
  simp only [decide_eq_true_eq]
  omega

theorem memRead_unmapped {off : Nat} (h : 0x40 ≤ off) (s : State) : memRead off s = (0#32, s) := by
  rw [memRead, ofOffset_unmapped h]

theorem memRead_idle (hb : s.busy = false) (r : HostReg) :
    memRead r.offset s = (readReg r s, s) := by
  rw [memRead, ofOffset_offset]
  simp [hb]

theorem memRead_idle_state (hb : s.busy = false) (off : Nat) : (memRead off s).2 = s := by
  obtain h | ⟨hbusy, -⟩ := memRead_state off s
  · exact h
  · rw [hb] at hbusy; cases hbusy

theorem memWrite_idle (hb : s.busy = false) (r : HostReg) (v : Word) :
    memWrite r.offset v s = writeReg r v s := by
  rw [memWrite, ofOffset_offset]
  simp [hb]

/-- A write to a register other than CMD leaves an idle block idle. -/
theorem writeReg_busy {r : HostReg} (hr : r ≠ .cmd) (v : Word) (s : State) :
    (writeReg r v s).busy = s.busy := by
  cases r
  case cmd => exact absurd rfl hr
  all_goals rfl

/-- On an idle block, what a read of `r` returns after a write to `q` other than CMD. -/
theorem memRead_memWrite_idle (hb : s.busy = false) (r q : HostReg) (hq : q ≠ .cmd)
    (v : Word) : (memRead r.offset (memWrite q.offset v s)).1 = readReg r (writeReg q v s) := by
  rw [memWrite_idle hb, memRead_idle ((writeReg_busy hq v s).trans hb)]

/-! ### What the registers read as -/

theorem statusWord_getLsbD_one (s : State) : (statusWord s).getLsbD 1 = s.initDone := by
  have hbits : ∀ (e : BitVec 4) (i b : Bool),
      ((e ++ 0b00#2 ++ BitVec.ofBool i ++ BitVec.ofBool b).setWidth 32).getLsbD 1 = i := by decide
  exact hbits _ _ _

theorem statusWord_toNat_idle (hb : s.busy = false) :
    (statusWord s).toNat = 2 * s.initDone.toNat + 16 * s.err.toNat := by
  have hbits : ∀ (e : BitVec 4) (i : Bool),
      ((e ++ 0b00#2 ++ BitVec.ofBool i ++ BitVec.ofBool false).setWidth 32).toNat =
        2 * i.toNat + 16 * e.toNat := by decide
  rw [statusWord, hb]
  exact hbits _ _

/-- A window over a buffer that has exactly `len` bits shows the buffer, 0 beyond its end. -/
theorem windowWord_getLsbD_of_length {idx : BitVec 24} {len : Nat} {l : List Bool}
    (hl : l.length = len) {b : Nat} (h : b < 32) :
    (windowWord idx len l).getLsbD b = l.getD (32 * idx.toNat + b) false := by
  rw [windowWord_getLsbD]
  by_cases hk : 32 * idx.toNat + b < len
  · simp [h, hk, bufferBit]
  · rw [List.getD_eq_default _ _ (by omega)]
    simp [hk]

theorem Inv.histWindow_eq (h : Inv s) : histWindow s = s.hist.getD s.idx.toNat 0#64 := by
  unfold histWindow
  split
  · rfl
  · rw [List.getD_eq_default _ _ (by rw [h.historyLength]; omega)]

/-- KS_LEN fits its register (R21). -/
theorem Inv.readReg_ksLen_toNat (h : Inv s) : (readReg .ksLen s).toNat = s.ks.length := by
  have hfits : s.ks.length ≤ s.cap.toNat := h.keystreamFits
  have hcap := s.cap.isLt
  simp only [readReg, State.ksLen, BitVec.toNat_setWidth, BitVec.toNat_ofNat]
  omega

/-- The low `n` bits of a word, zero-extended back, are the word under a mask of `n` ones. -/
theorem setWidth_extractLsb'_zero {w n : Nat} (h : n ≤ w) (v : BitVec w) :
    (v.extractLsb' 0 n).setWidth w = v &&& BitVec.ofNat w (2 ^ n - 1) := by
  apply BitVec.eq_of_toNat_eq
  have hmask : 2 ^ n - 1 < 2 ^ w :=
    lt_of_lt_of_le (Nat.sub_lt (Nat.two_pow_pos n) one_pos) (Nat.pow_le_pow_right two_pos h)
  rw [BitVec.toNat_setWidth_of_le h, BitVec.toNat_and, BitVec.toNat_ofNat,
    Nat.mod_eq_of_lt hmask, Nat.and_two_pow_sub_one_eq_mod]
  simp

/-- A window word reads back the bits that exist (R42). -/
theorem windowWord_windowWrite_getLsbD {idx : BitVec 24} {cap : Nat} {l : List Bool}
    (hl : l.length = cap) (v : Word) {b : Nat} (h : b < 32) :
    (windowWord idx cap (windowWrite idx cap v l)).getLsbD b =
      (decide (32 * idx.toNat + b < cap) && v.getLsbD b) := by
  have hword : (32 * idx.toNat + b) / 32 = idx.toNat := by omega
  have hbit : (32 * idx.toNat + b) % 32 = b := by omega
  rw [windowWord_getLsbD, windowWrite_bufferBit, hl, hword, hbit]
  by_cases hk : 32 * idx.toNat + b < cap <;> simp [hk, h]

end HostWindow

section Meanings

variable {s t : State} {i : Instr}

/-! ### What the meanings leave unchanged -/

/-- A property of what a checked command answers: it holds of the state left by an error, and of the
state its body leaves. -/
theorem checkedCommand_of_setErr {P : State → Prop} {n : Nat} {body : State → State}
    (herr : ∀ e, P (s.setErr e)) (hbody : ∀ e, P ((body s).setErr e)) :
    P (checkedCommand n body s) := by
  obtain ⟨-, h⟩ | ⟨-, -, h⟩ | ⟨-, -, h⟩ := checkedCommand_cases n body s
  · exact h ▸ herr _
  · exact h ▸ herr _
  · exact h ▸ hbody _

/-- ENCDEC's body writes RESULT, in the present state or after GEN's body (R118). -/
theorem encdecBody_cases (n : Nat) (s : State) :
    ∃ r, encdecBody n s = s.setResult r ∨ encdecBody n s = (genBody n s).setResult r := by
  unfold encdecBody
  split
  · exact ⟨_, .inr rfl⟩
  · exact ⟨_, .inl rfl⟩

/-- `t` is `s` but for what a command writes: the cipher state, RESULT, ERR and the trace (R124). -/
def CommandWritesOnly (s t : State) : Prop :=
  t = { s with
    bank := t.bank, initDone := t.initDone, ks := t.ks, hist := t.hist, result := t.result,
    err := t.err, trace := t.trace }

theorem CommandWritesOnly.setErr (h : CommandWritesOnly s t) (e : BitVec 4) :
    CommandWritesOnly s (t.setErr e) := congrArg (State.setErr e) h

theorem CommandWritesOnly.setResult (h : CommandWritesOnly s t) (r : List Bool) :
    CommandWritesOnly s (t.setResult r) := congrArg (State.setResult r) h

theorem genBody_commandWritesOnly (n : Nat) (s : State) : CommandWritesOnly s (genBody n s) := by
  rw [genBody_eq]
  rfl

theorem encdecBody_commandWritesOnly (n : Nat) (s : State) :
    CommandWritesOnly s (encdecBody n s) := by
  obtain ⟨r, h | h⟩ := encdecBody_cases n s
  · rw [h]; rfl
  · rw [h]; exact (genBody_commandWritesOnly n s).setResult r

theorem checkedCommand_commandWritesOnly {n : Nat} {body : State → State}
    (h : CommandWritesOnly s (body s)) : CommandWritesOnly s (checkedCommand n body s) :=
  checkedCommand_of_setErr (fun _ => rfl) h.setErr

/-- No meaning writes a staging register, the command in flight, CAP or an agent's field. -/
theorem exec_commandWritesOnly (he : exec i s = .next t) : CommandWritesOnly s t := by
  cases i with
  | gen n => cases he; exact checkedCommand_commandWritesOnly (genBody_commandWritesOnly n s)
  | encdec n => cases he; exact checkedCommand_commandWritesOnly (encdecBody_commandWritesOnly n s)
  | _ => cases he; rfl

theorem CommandWritesOnly.cap_eq (h : CommandWritesOnly s t) : t.cap = s.cap :=
  (congrArg State.cap h :)

theorem genBody_initDone (n : Nat) (s : State) : (genBody n s).initDone = s.initDone := by
  rw [genBody_eq]

theorem genBody_trace_prefix (n : Nat) (s : State) : s.trace <+: (genBody n s).trace := by
  rw [genBody_eq]
  exact List.prefix_append _ _

theorem encdecBody_initDone (n : Nat) (s : State) : (encdecBody n s).initDone = s.initDone := by
  obtain ⟨r, h | h⟩ := encdecBody_cases n s
  · rw [h]; rfl
  · rw [h]; exact genBody_initDone n s

theorem encdecBody_trace_prefix (n : Nat) (s : State) : s.trace <+: (encdecBody n s).trace := by
  obtain ⟨r, h | h⟩ := encdecBody_cases n s
  · rw [h]; exact List.prefix_rfl
  · rw [h]; exact genBody_trace_prefix n s

/-- The trace port only gains events (R31). -/
theorem exec_trace_prefix (he : exec i s = .next t) : s.trace <+: t.trace := by
  cases i with
  | gen n =>
    cases he
    exact checkedCommand_of_setErr (P := fun u => s.trace <+: u.trace)
      (fun _ => List.prefix_rfl) (fun _ => genBody_trace_prefix n s)
  | encdec n =>
    cases he
    exact checkedCommand_of_setErr (P := fun u => s.trace <+: u.trace)
      (fun _ => List.prefix_rfl) (fun _ => encdecBody_trace_prefix n s)
  | _ => cases he; exact List.prefix_rfl

/-- INIT alone writes init_done, and sets it (R20). -/
theorem exec_initDone (he : exec i s = .next t) :
    t.initDone = s.initDone ∨ (t.initDone = true ∧ ∃ fe, i = .init fe) := by
  cases i with
  | init fe => cases he; exact .inr ⟨rfl, fe, rfl⟩
  | gen n =>
    cases he
    exact .inl (checkedCommand_of_setErr (P := fun u => u.initDone = s.initDone)
      (fun _ => rfl) (fun _ => genBody_initDone n s))
  | encdec n =>
    cases he
    exact .inl (checkedCommand_of_setErr (P := fun u => u.initDone = s.initDone)
      (fun _ => rfl) (fun _ => encdecBody_initDone n s))
  | _ => cases he; exact .inl rfl

/-! ### Success and failure of a command -/

theorem isCommand_cases (h : isCommand i = true) :
    (∃ fe, i = .init fe) ∨ (∃ n, i = .gen n) ∨ (∃ n, i = .encdec n) := by
  cases i with
  | init fe => exact .inl ⟨fe, rfl⟩
  | gen n => exact .inr (.inl ⟨n, rfl⟩)
  | encdec n => exact .inr (.inr ⟨n, rfl⟩)
  | _ => cases h

theorem checkedCommand_of_error {n : Nat} {e : ErrCode} (h : lengthCommandError n s = some e)
    (body : State → State) : checkedCommand n body s = raiseErr e s := by rw [checkedCommand, h]

theorem checkedCommand_of_noError {n : Nat} (h : lengthCommandError n s = none)
    (body : State → State) : checkedCommand n body s = succeed (body s) := by
  rw [checkedCommand, h]

/-- A failing check ends the command with its code and no other effect (R133). -/
theorem exec_of_commandError {e : ErrCode} (h : commandError i s = some e) :
    exec i s = .next (raiseErr e s) := by
  cases i with
  | gen n => exact congrArg Host.Outcome.next (checkedCommand_of_error h (genBody n))
  | encdec n => exact congrArg Host.Outcome.next (checkedCommand_of_error h (encdecBody n))
  | _ => cases h

/-- A command whose checks pass ends with ERR = 0 (R113, R114, R118). -/
theorem exec_err_of_commandError_none (hi : isCommand i = true) (h : commandError i s = none) :
    ∃ t, exec i s = .next t ∧ t.err = 0#4 := by
  cases i with
  | init fe => exact ⟨_, rfl, rfl⟩
  | gen n => exact ⟨_, rfl, congrArg State.err (checkedCommand_of_noError h (genBody n))⟩
  | encdec n => exact ⟨_, rfl, congrArg State.err (checkedCommand_of_noError h (encdecBody n))⟩
  | _ => cases hi

/-- The command the sequencer works on is an INIT, GEN or ENCDEC in flight that succeeds. -/
theorem activeCommand_succeeds (h : activeCommand s = some i) :
    s.busy = true ∧ ∃ w u, s.pend = some w ∧ decodeCmd w = .ok i ∧ exec i s = .next u ∧
      u.err = 0#4 ∧ ((∃ fe, i = .init fe) ∨ (∃ n, i = .gen n) ∨ (∃ n, i = .encdec n)) := by
  obtain ⟨hb, w, hp, hd, he⟩ := activeCommand_eq_some.mp h
  have hi := decodeCmd_isCommand hd
  obtain ⟨u, hu, herr⟩ := exec_err_of_commandError_none hi he
  exact ⟨hb, w, u, hp, hd, hu, herr, isCommand_cases hi⟩

@[simp] theorem activeCommand_setSched (s : State) (l : List Turn) :
    activeCommand (s.setSched l) = activeCommand s := rfl

/-- The checks read nothing that the start of a command changes. -/
theorem commandError_commandStart (i : Instr) (s : State) :
    commandError i (commandStart s) = commandError i s := by cases i <;> rfl

/-- An ILLEGAL or failing command has driven no bank cycle, so it starts from the present bank. -/
theorem commandStart_bank_of_inactive (h : activeCommand s = none) :
    (commandStart s).bank = s.bank := by
  change startBank s = s.bank
  unfold startBank
  split
  · rfl
  · rw [h]

end Meanings

section TurnEffects

variable {s t : State}

/-! ### The Engine's turn -/

/-- The Engine's turn when it answers a next state: it passes, or retires the pending command after
performing it or refusing its word as ILLEGAL. -/
theorem engineTurn_next (he : engineTurn s = .next t) :
    (s.busy = false ∧ t = s) ∨
    (∃ w, s.busy = true ∧ s.pend = some w ∧
      ((∃ i u, decodeCmd w = .ok i ∧ exec i (commandStart s) = .next u ∧ t = u.retire) ∨
       (∃ e, decodeCmd w = .error e ∧ t = ((commandStart s).setErr 1#4).retire))) := by
  obtain ⟨hb, hres⟩ | ⟨w, hb, hp, hres⟩ | ⟨-, -, hres⟩ := engineTurn_cases s
  · cases hres.symm.trans he
    exact .inl ⟨hb, rfl⟩
  · refine .inr ⟨w, hb, hp, ?_⟩
    obtain ⟨i, u, hd, hu, hc⟩ | ⟨e, hd, hc⟩ := performCommand_cases w (commandStart s)
    · cases (hres.trans hc).symm.trans he
      exact .inl ⟨i, u, hd, hu, rfl⟩
    · cases (hres.trans hc).symm.trans he
      exact .inr ⟨e, hd, rfl⟩
  · cases hres.symm.trans he

theorem engineTurn_cap (he : engineTurn s = .next t) : t.cap = s.cap := by
  obtain ⟨-, rfl⟩ | ⟨-, -, -, ⟨i, u, -, hu, rfl⟩ | ⟨-, -, rfl⟩⟩ := engineTurn_next he
  · rfl
  · exact ((exec_commandWritesOnly hu).cap_eq :)
  · rfl

theorem engineTurn_trace_prefix (he : engineTurn s = .next t) : s.trace <+: t.trace := by
  obtain ⟨-, rfl⟩ | ⟨-, -, -, ⟨i, u, -, hu, rfl⟩ | ⟨-, -, rfl⟩⟩ := engineTurn_next he
  · exact List.prefix_rfl
  · exact (exec_trace_prefix hu :)
  · exact List.prefix_rfl

theorem engineTurn_initDone (he : engineTurn s = .next t) :
    t.initDone = s.initDone ∨
    (t.initDone = true ∧ s.busy = true ∧
      ∃ w fe, s.pend = some w ∧ decodeCmd w = .ok (.init fe)) := by
  obtain ⟨-, rfl⟩ | ⟨w, hb, hp, ⟨i, u, hd, hu, rfl⟩ | ⟨-, -, rfl⟩⟩ := engineTurn_next he
  · exact .inl rfl
  · obtain h | ⟨hset, fe, rfl⟩ := exec_initDone hu
    · exact .inl h
    · exact .inr ⟨hset, hb, w, fe, hp, hd⟩
  · exact .inl rfl

/-- The Engine moves the bank only for a command that succeeds (R133). -/
theorem engineTurn_bank_of_inactive (he : engineTurn s = .next t) (ha : activeCommand s = none) :
    t.bank = s.bank := by
  obtain ⟨-, rfl⟩ | ⟨w, hb, hp, ⟨i, u, hd, hu, rfl⟩ | ⟨-, -, rfl⟩⟩ := engineTurn_next he
  · rfl
  · cases herr : commandError i s with
    | none => cases ha.symm.trans (activeCommand_eq_some.mpr ⟨hb, w, hp, hd, herr⟩)
    | some e =>
      rw [exec_of_commandError ((commandError_commandStart i s).trans herr)] at hu
      cases hu
      exact commandStart_bank_of_inactive ha
  · exact commandStart_bank_of_inactive ha

/-! ### A bank cycle -/

/-- A bank cycle changes the bank and the sequencer's progress alone. -/
theorem bankCycleTurn_frame (h : bankCycleTurn s = .next t) :
    t = { s with bank := t.bank, cycles := t.cycles } := by
  obtain hres | ⟨i, w, rest, -, -, hres⟩ := bankCycleTurn_cases s
  · cases hres.symm.trans h; rfl
  · cases hres.symm.trans h; rfl

/-- A port word decodes to one of the four bank operations (R81). -/
theorem decodePort_cases (w : PortWord) :
    decodePort w = .hold ∨ decodePort w = .clear ∨ (∃ b, decodePort w = .load b) ∨
      decodePort w = .mstep := by
  unfold decodePort
  split
  · exact .inl rfl
  · split
    · exact .inr (.inl rfl)
    · split
      · exact .inr (.inr (.inl ⟨_, rfl⟩))
      · exact .inr (.inr (.inr rfl))

/-- HOLD keeps the bank (R91). -/
theorem drive_of_hold {w : PortWord} (h : decodePort w = .hold) (b : Bank) : b.drive w = b := by
  rw [Bank.drive, h]

/-- A bank cycle keeps the bank, or drives one CLEAR, LOAD or MSTEP of the command in flight. -/
theorem bankCycleTurn_bank (h : bankCycleTurn s = .next t) :
    t.bank = s.bank ∨
    ((∃ i, activeCommand s = some i) ∧ ∃ w, t.bank = s.bank.drive w ∧
      (decodePort w = .clear ∨ (∃ b, decodePort w = .load b) ∨ decodePort w = .mstep)) := by
  obtain hres | ⟨i, w, rest, ha, -, hres⟩ := bankCycleTurn_cases s
  · cases hres.symm.trans h
    exact .inl rfl
  · cases hres.symm.trans h
    obtain hw | hw := decodePort_cases w
    · exact .inl (drive_of_hold hw _)
    · exact .inr ⟨⟨i, ha⟩, w, rfl, hw⟩

/-! ### The Host's turn -/

/-- `t` is `s` but for the staging registers, the command in flight and what the Host keeps. -/
def HostWritesOnly (s t : State) : Prop :=
  t = { s with
    key := t.key, frame := t.frame, data := t.data, idx := t.idx, pend := t.pend,
    busy := t.busy, prog := t.prog, reads := t.reads, draws := t.draws }

theorem HostWritesOnly.setProg (h : HostWritesOnly s t) (l : List HostOp) :
    HostWritesOnly s (t.setProg l) := congrArg (State.setProg l) h

theorem HostWritesOnly.cap_eq (h : HostWritesOnly s t) : t.cap = s.cap := (congrArg State.cap h :)

theorem HostWritesOnly.trace_eq (h : HostWritesOnly s t) : t.trace = s.trace :=
  (congrArg State.trace h :)

theorem HostWritesOnly.initDone_eq (h : HostWritesOnly s t) : t.initDone = s.initDone :=
  (congrArg State.initDone h :)

theorem HostWritesOnly.bank_eq (h : HostWritesOnly s t) : t.bank = s.bank :=
  (congrArg State.bank h :)

theorem readAndLog_hostWritesOnly (off : Nat) (name : Option String) (s : State) :
    HostWritesOnly s (readAndLog off name s) := by
  unfold readAndLog
  obtain h | ⟨-, h⟩ := memRead_state off s
  · rw [h]; rfl
  · rw [h]; rfl

theorem memWrite_hostWritesOnly (off : Nat) (v : Word) (s : State) :
    HostWritesOnly s (memWrite off v s) := by
  obtain h | ⟨-, -, h⟩ | ⟨-, -, ⟨k, h⟩ | ⟨f, h⟩ | ⟨i, h⟩ | h⟩ := memWrite_cases off v s <;>
    (rw [h]; rfl)

theorem hostTurn_hostWritesOnly (h : hostTurn s = .next t) : HostWritesOnly s t := by
  obtain ⟨-, rfl⟩ | ⟨off, -, name, rest, -, -, rfl⟩ | ⟨off, -, v, rest, -, -, rfl⟩ |
    ⟨rest, -, ⟨-, rfl⟩ | ⟨-, rfl⟩⟩ := hostTurn_cases h
  · rfl
  · exact (readAndLog_hostWritesOnly off name s).setProg rest
  · exact (memWrite_hostWritesOnly off v s).setProg rest
  · exact readAndLog_hostWritesOnly 4 none s
  · exact (readAndLog_hostWritesOnly 4 none s).setProg rest

/-! ### Every turn -/

/-- KS_CAP never changes (R38, R147). -/
theorem takeTurn_cap {turn : Turn} (h : takeTurn turn s = .next t) : t.cap = s.cap := by
  cases turn with
  | host => exact (hostTurn_hostWritesOnly h).cap_eq
  | engine => exact engineTurn_cap h
  | reset emitted => cases h; rfl
  | bankCycle => exact (congrArg State.cap (bankCycleTurn_frame h) :)

/-- The trace only grows but by reset (R31, R147). -/
theorem takeTurn_trace_prefix {turn : Turn} (h : takeTurn turn s = .next t)
    (hr : turn.isReset = false) : s.trace <+: t.trace := by
  cases turn with
  | host => rw [(hostTurn_hostWritesOnly h).trace_eq]
  | engine => exact engineTurn_trace_prefix h
  | reset emitted => cases hr
  | bankCycle => rw [(congrArg State.trace (bankCycleTurn_frame h) :)]

/-- A turn keeps init_done, or it is a reset, which clears it, or the Engine's for an INIT (R20). -/
theorem takeTurn_initDone {turn : Turn} (h : takeTurn turn s = .next t) :
    t.initDone = s.initDone ∨ (turn.isReset = true ∧ t.initDone = false) ∨
    (t.initDone = true ∧ turn = .engine ∧ s.busy = true ∧
      ∃ w fe, s.pend = some w ∧ decodeCmd w = .ok (.init fe)) := by
  cases turn with
  | host => exact .inl ((hostTurn_hostWritesOnly h).initDone_eq)
  | engine =>
    obtain hsame | ⟨hset, hinit⟩ := engineTurn_initDone h
    · exact .inl hsame
    · exact .inr (.inr ⟨hset, rfl, hinit⟩)
  | reset emitted => cases h; exact .inr (.inl ⟨rfl, rfl⟩)
  | bankCycle => exact .inl (congrArg State.initDone (bankCycleTurn_frame h) :)

/-- A turn that moves the bank is a reset, or it is the Engine's or a bank cycle, and a command that
succeeds is in flight (R15, R133, R147). -/
theorem takeTurn_bank {turn : Turn} (h : takeTurn turn s = .next t) :
    t.bank = s.bank ∨ turn.isReset = true ∨
    ((∃ i, activeCommand s = some i) ∧ (turn = .engine ∨ (turn = .bankCycle ∧
      ∃ w, t.bank = s.bank.drive w ∧
        (decodePort w = .clear ∨ (∃ b, decodePort w = .load b) ∨ decodePort w = .mstep)))) := by
  cases turn with
  | host => exact .inl ((hostTurn_hostWritesOnly h).bank_eq)
  | engine =>
    cases ha : activeCommand s with
    | none => exact .inl (engineTurn_bank_of_inactive h ha)
    | some i => exact .inr (.inr ⟨⟨i, rfl⟩, .inl rfl⟩)
  | reset emitted => exact .inr (.inl rfl)
  | bankCycle =>
    obtain hsame | ⟨hactive, hdriven⟩ := bankCycleTurn_bank h
    · exact .inl hsame
    · exact .inr (.inr ⟨hactive, .inr ⟨rfl, hdriven⟩⟩)

end TurnEffects

/-! ### The obligations -/

/-- Settles O18: the packed form has an inverse, and the mapping form determines the bank. -/
theorem snapshotFormsAgree : Obligations.SnapshotFormsAgree := by
  refine ⟨ofSnap_snap, snap_ofSnap, fun b _ => snap_getLsbD_r1 b, fun b _ => snap_getLsbD_r2 b,
    fun b j _ => snap_getLsbD_r3 b j, fun _ => rfl, fun b c => ?_⟩
  rw [mapping_injective.eq_iff, snap_injective.eq_iff]

/-- Settles O38: no turn but a reset clears init_done, and none but the Engine's on an INIT sets
it. -/
theorem initDoneSetByInitClearedByReset : Obligations.InitDoneSetByInitClearedByReset := by
  refine ⟨fun s hb => ?_, fun s t hstep => ?_⟩
  · exact (congrArg (·.1.getLsbD 1) (memRead_idle hb .status)).trans (statusWord_getLsbD_one s)
  · rw [step_eq_takeTurn] at hstep
    obtain hsame | ⟨hreset, hclear⟩ | ⟨hset, hengine⟩ := takeTurn_initDone hstep
    · have hsame' : t.initDone = s.initDone := hsame
      constructor <;> intro hs ht <;> simp [hs, ht] at hsame'
    · exact ⟨fun _ _ => hreset, fun _ ht => by simp [hclear] at ht⟩
    · exact ⟨fun _ ht => by simp [hset] at ht, fun _ _ => hengine⟩

/-- Settles O39: the frame of the Host's turn. -/
theorem hostTurnNeverTouchesCipherState : Obligations.HostTurnNeverTouchesCipherState := by
  intro s t hturn hstep
  rw [step_eq_takeTurn, hturn] at hstep
  exact hostTurn_hostWritesOnly hstep

/-- Settles O41: turn by turn. -/
theorem capacityIsConstantAndTraceOnlyGrows : Obligations.CapacityIsConstantAndTraceOnlyGrows := by
  intro s t hstep
  rw [step_eq_takeTurn] at hstep
  exact ⟨(takeTurn_cap hstep :), (takeTurn_trace_prefix hstep :)⟩

/-- Settles O46: each offset through the register it stands for; `Inv` ties the buffers' lengths to
KS_LEN and KS_CAP. -/
theorem idleReadReturnsRegister : Obligations.IdleReadReturnsRegister := by
  intro s h hb
  have hread (r : HostReg) : (memRead r.offset s).1 = readReg r s := by rw [memRead_idle hb]
  have hnum (r : HostReg) : (memRead r.offset s).1.toNat = (readReg r s).toNat := by rw [hread]
  have hbit (r : HostReg) (b : Nat) :
      (memRead r.offset s).1.getLsbD b = (readReg r s).getLsbD b := by rw [hread]
  have hhist : readReg .histHi s ++ readReg .histLo s = s.hist.getD s.idx.toNat 0#64 :=
    (BitVec.extractLsb'_append_extractLsb'_eq_extractLsb' rfl).trans
      (BitVec.extractLsb'_eq_self.trans h.histWindow_eq)
  exact ⟨fun off _ _ => memRead_idle_state hb off,
    fun off hoff _ => by rw [memRead_unmapped hoff],
    hread .cmd,
    (hnum .status).trans (statusWord_toNat_idle hb),
    hread .keyLo,
    hread .keyHi,
    (hnum .frame).trans (BitVec.toNat_setWidth_of_le (by decide)),
    (hnum .ksLen).trans h.readReg_ksLen_toNat,
    (hnum .cap).trans (BitVec.toNat_setWidth_of_le (by decide)),
    (hnum .r1State).trans (BitVec.toNat_setWidth_of_le (by decide)),
    (hnum .r2State).trans (BitVec.toNat_setWidth_of_le (by decide)),
    (hnum .r3State).trans (BitVec.toNat_setWidth_of_le (by decide)),
    (hnum .idx).trans (BitVec.toNat_setWidth_of_le (by decide)),
    fun b hlt => (hbit .ksWin b).trans (windowWord_getLsbD_of_length rfl hlt),
    fun b hlt => (hbit .dataWin b).trans (windowWord_getLsbD_of_length h.dataLength hlt),
    fun b hlt => (hbit .resWin b).trans (windowWord_getLsbD_of_length h.resultLength hlt),
    (congrArg₂ (· ++ ·) (hread .histHi) (hread .histLo)).trans hhist⟩

/-- Settles O51: a write to an idle block and then a read, through the two registers' own rules. -/
theorem writableRegistersReadBack : Obligations.WritableRegistersReadBack := by
  intro s v h hb
  have hread (r : HostReg) : readReg r s = (memRead r.offset s).1 := by rw [memRead_idle hb]
  have hback (r q : HostReg) (hq : q ≠ .cmd) := memRead_memWrite_idle hb r q hq v
  exact ⟨(hback .keyLo .keyLo (by decide)).trans BitVec.extractLsb'_append_eq_right,
    (hback .keyHi .keyLo (by decide)).trans
      (BitVec.extractLsb'_append_eq_left.trans (hread .keyHi)),
    (hback .keyHi .keyHi (by decide)).trans BitVec.extractLsb'_append_eq_left,
    (hback .keyLo .keyHi (by decide)).trans
      (BitVec.extractLsb'_append_eq_right.trans (hread .keyLo)),
    (hback .frame .frame (by decide)).trans (setWidth_extractLsb'_zero (by decide) v),
    (hback .idx .idx (by decide)).trans (setWidth_extractLsb'_zero (by decide) v),
    fun b hlt => (congrArg (·.getLsbD b) (hback .dataWin .dataWin (by decide))).trans
      (windowWord_windowWrite_getLsbD h.dataLength v hlt)⟩

/-- Settles O57: what is in flight while the bank moves is a command that succeeds, by the Engine's
step or by one port word of it. -/
theorem onlyCommandsMoveTheBank : Obligations.OnlyCommandsMoveTheBank := by
  intro s t hstep hmoved
  rw [step_eq_takeTurn] at hstep
  obtain hsame | hreset | ⟨⟨i, hactive⟩, hturn⟩ := takeTurn_bank hstep
  · exact absurd hsame hmoved
  · exact .inl hreset
  · obtain ⟨hb, w, u, hp, hd, hu, herr, hcommand⟩ := activeCommand_succeeds (s := s) hactive
    refine .inr ⟨hb, w, i, u, hp, hd, hu, herr, hcommand, ?_⟩
    obtain hengine | ⟨hcycle, port, hdriven, hop⟩ := hturn
    · exact .inl hengine
    · exact .inr ⟨hcycle, decodePort port, _, hop, exec_decodePort port s, hdriven⟩

/-- Settles O1: the table of R45, and the range of the open capacity. -/
theorem resetHoldsSpecValues : Obligations.ResetHoldsSpecValues := by
  have hrange : 1 ≤ Config.ksCap.toNat ∧ Config.ksCap.toNat ≤ 16777215 := by
    rw [config_ksCap_toNat]
    omega
  exact ⟨rfl, rfl, rfl, rfl, rfl, rfl, rfl, rfl, rfl, rfl, rfl, rfl, rfl, rfl, hrange⟩

/-- Settles O2: every capacity in range gives an invariant reset state, its buffers empty. -/
theorem resetMeetsInvariants : Obligations.ResetMeetsInvariants := by
  have hcap : 1 ≤ Config.ksCap.toNat := by
    rw [config_ksCap_toNat]
    omega
  exact ⟨inv_resetWith hcap, historyConsistent_of_empty rfl rfl, rfl, rfl⟩

end Sys2Proof.Machine

/-! The host window (R46 to R68): byte lanes, reads and writes register by register, one turn of the
Host, and the statements of spec/20_memory.md about them. -/

namespace Sys2Proof.Machine

section ByteLanes

/-- The four byte lanes of a word make it up again (R48). -/
theorem wordOfLanes_lanesOfWord (w : Word) :
    wordOfLanes (w.extractLsb' 0 8) (w.extractLsb' 8 8) (w.extractLsb' 16 8) (w.extractLsb' 24 8) =
      w := by
  apply BitVec.eq_of_getLsbD_eq
  intro k hk
  simp only [wordOfLanes, BitVec.getLsbD_append, BitVec.getLsbD_extractLsb']
  grind

theorem decodeCmdBytes_lanesOfWord (w : Word) (rest : List Byte) :
    decodeCmdBytes (lanesOfWord w ++ rest) = (decodeCmd w).map (·, rest) := by
  simp only [lanesOfWord, List.cons_append, List.nil_append, decodeCmdBytes,
    wordOfLanes_lanesOfWord]
  cases decodeCmd w <;> rfl

end ByteLanes

section Accesses

variable {s : State}

/-! ### Reads and writes by offset -/

/-- Every aligned offset below 0x40 is mapped (R32). -/
theorem exists_offset_eq {off : Nat} (hal : off % 4 = 0) (hlt : off < 0x40) :
    ∃ r : HostReg, r.offset = off := by
  have hall : ∀ off < 0x40, off % 4 = 0 → ∃ r ∈ HostReg.all, r.offset = off := by decide
  obtain ⟨r, -, hr⟩ := hall off hlt hal
  exact ⟨r, hr⟩

/-- A mapped register other than STATUS and CAP reads as a free value while BUSY = 1 (R56). -/
theorem memRead_busy_free (hb : s.busy = true) {r : HostReg} (hstatus : r ≠ .status)
    (hcap : r ≠ .cap) : memRead r.offset s = (Config.freeDraw s.draws, s.countDraw) := by
  rw [memRead, ofOffset_offset]
  simp [hb]

theorem memRead_busy_status (hb : s.busy = true) :
    memRead HostReg.status.offset s =
      (busyStatusWord (Config.freeDraw s.draws), s.countDraw) := by
  rw [memRead, ofOffset_offset]
  simp [hb]

theorem memRead_busy_cap (hb : s.busy = true) :
    memRead HostReg.cap.offset s = (s.cap.setWidth 32, s) := by
  rw [memRead, ofOffset_offset]
  simp [hb, readReg]

theorem busyStatusWord_getLsbD_zero (draw : Word) : (busyStatusWord draw).getLsbD 0 = true := by
  rw [busyStatusWord, BitVec.getLsbD_append]
  rfl

theorem busyStatusWord_getLsbD_succ (draw : Word) {b : Nat} (h : b < 31) :
    (busyStatusWord draw).getLsbD (b + 1) = draw.getLsbD b := by
  rw [busyStatusWord, BitVec.getLsbD_append]
  simp [h]

theorem statusWord_getLsbD_zero (s : State) : (statusWord s).getLsbD 0 = s.busy := by
  have hbits : ∀ (e : BitVec 4) (i b : Bool),
      ((e ++ 0b00#2 ++ BitVec.ofBool i ++ BitVec.ofBool b).setWidth 32).getLsbD 0 = b := by decide
  exact hbits _ _ _

/-- Bit 0 of STATUS is BUSY, in flight as on an idle block (R34, R56). -/
theorem memRead_status_getLsbD_zero (s : State) : (memRead 4 s).1.getLsbD 0 = s.busy := by
  cases hb : s.busy
  · exact (congrArg (·.1.getLsbD 0) (memRead_idle hb .status)).trans
      ((statusWord_getLsbD_zero s).trans hb)
  · exact (congrArg (·.1.getLsbD 0) (memRead_busy_status hb)).trans (busyStatusWord_getLsbD_zero _)

theorem memWrite_busy (hb : s.busy = true) (off : Nat) (v : Word) : memWrite off v s = s := by
  rw [memWrite, hb, if_pos rfl]

theorem memWrite_unmapped {off : Nat} (h : 0x40 ≤ off) (v : Word) (s : State) :
    memWrite off v s = s := by
  rw [memWrite, ofOffset_unmapped h, ite_self]

/-- A write to a register that is not writable does nothing (R50). -/
theorem writeReg_readOnly {r : HostReg} (h : r.access = .ro) (v : Word) (s : State) :
    writeReg r v s = s := by
  revert h
  cases r <;> simp [HostReg.access, writeReg]

/-- DATA after a write to DATA_WIN, inside word IDX (R42). -/
theorem windowWrite_bufferBit_inside {idx : BitVec 24} {cap : Nat} {l : List Bool} (v : Word)
    {b : Nat} (h : b < 32) (hcap : 32 * idx.toNat + b < cap) (hlen : 32 * idx.toNat + b < l.length) :
    bufferBit (windowWrite idx cap v l) (32 * idx.toNat + b) = v.getLsbD b := by
  have hword : (32 * idx.toNat + b) / 32 = idx.toNat := by omega
  have hbit : (32 * idx.toNat + b) % 32 = b := by omega
  rw [windowWrite_bufferBit, if_pos ⟨hlen, hcap, hword⟩, hbit]

/-- DATA after a write to DATA_WIN, in the other words and beyond KS_CAP (R42). -/
theorem windowWrite_bufferBit_outside {idx : BitVec 24} {cap : Nat} (v : Word) (l : List Bool)
    {k : Nat} (h : k / 32 ≠ idx.toNat ∨ cap ≤ k) :
    bufferBit (windowWrite idx cap v l) k = bufferBit l k := by
  rw [windowWrite_bufferBit, if_neg]
  rintro ⟨-, hcap, hword⟩
  omega

/-- A register that is not read-only stands at one of the six writable offsets (R32). -/
theorem access_ro_of_offset {r : HostReg}
    (h : r.offset ∉ [0x00, 0x08, 0x0C, 0x10, 0x28, 0x30]) : r.access = .ro := by
  revert h
  cases r <;> decide

/-! ### One access of the Host -/

theorem readAndLog_eq (off : Nat) (name : Option String) (s : State) :
    readAndLog off name s = { s with
      draws := (memRead off s).2.draws
      reads := s.reads ++ [{ off := off, name := name, value := (memRead off s).1 }] } := by
  unfold readAndLog
  obtain h | ⟨-, h⟩ := memRead_state off s <;> (rw [h]; rfl)

theorem memRead_setSched (off : Nat) (s : State) (l : List Turn) :
    memRead off (s.setSched l) = ((memRead off s).1, (memRead off s).2.setSched l) := by
  unfold memRead
  cases HostReg.ofOffset off with
  | none => rfl
  | some r =>
    cases hb : s.busy
    · simp only [State.setSched_busy, hb]; rfl
    · cases r <;> simp only [State.setSched_busy, hb] <;> rfl

theorem hostAccess_admitted {off size : Nat} (h : admitted off size = true) (t : State) :
    hostAccess off size t = .next t := by rw [hostAccess, if_pos h]

theorem hostAccess_outside {off : Nat} (h : 0x100 ≤ off) (size : Nat) (t : State) :
    hostAccess off size t = .refused (.outsideWindow off) := by
  have hadm : ¬ admitted off size = true := by
    simp only [admitted, Bool.and_eq_true, decide_eq_true_eq]
    omega
  rw [hostAccess, if_neg hadm, if_pos h]

theorem hostAccess_stuck {off size : Nat} (hin : off < 0x100) (h : ¬ (size = 4 ∧ off % 4 = 0))
    (t : State) : hostAccess off size t = .fault (.stuckAccess off size) := by
  have hadm : ¬ admitted off size = true := by
    simp only [admitted, Bool.and_eq_true, decide_eq_true_eq]
    tauto
  rw [hostAccess, if_neg hadm, if_neg (by omega)]

/-- The aligned 32-bit accesses of the window are admitted (R53). -/
theorem admitted_of_aligned {off : Nat} (hin : off < 0x100) (hal : off % 4 = 0) :
    admitted off 4 = true := by simp [admitted, hin, hal]

theorem hostTurn_read {off size : Nat} {name : Option String} {rest : List HostOp}
    (h : s.prog = .read off size name :: rest) :
    hostTurn s = hostAccess off size ((readAndLog off name s).setProg rest) := by
  rw [hostTurn, h]

theorem hostTurn_write {off size : Nat} {v : Word} {rest : List HostOp}
    (h : s.prog = .write off size v :: rest) :
    hostTurn s = hostAccess off size ((memWrite off v s).setProg rest) := by
  rw [hostTurn, h]

theorem hostTurn_poll {rest : List HostOp} (h : s.prog = .poll :: rest) :
    hostTurn s = .next (if s.busy then readAndLog 4 none s
      else (readAndLog 4 none s).setProg rest) := by
  have hbit : (memRead HostReg.status.offset s).1.getLsbD 0 = s.busy :=
    memRead_status_getLsbD_zero s
  rw [hostTurn, h]
  dsimp only
  rw [hbit]
  cases s.busy <;> rfl

/-- A read or a write on the Host's turn is one access at its offset and size. -/
theorem hostTurn_access {op : HostOp} {rest : List HostOp} {off size : Nat}
    (hprog : s.prog = op :: rest)
    (hop : (∃ name, op = .read off size name) ∨ (∃ v, op = .write off size v)) :
    ∃ t, hostTurn s = hostAccess off size t := by
  obtain ⟨name, rfl⟩ | ⟨v, rfl⟩ := hop
  · exact ⟨_, hostTurn_read hprog⟩
  · exact ⟨_, hostTurn_write hprog⟩

/-- A step on the Host's turn. -/
theorem step_hostTurn (h : currentTurn s = .host) :
    step s = hostTurn (s.setSched s.sched.tail) := by
  rw [step_eq_takeTurn, h]
  rfl

end Accesses

/-! ### The obligations on accesses -/

/-- Settles O50: each offset through the register it stands for; the bits of DATA by the window's
own rule. -/
theorem writesStoreWritableBits : Obligations.WritesStoreWritableBits := by
  refine fun s v => ⟨fun hb off => memWrite_busy hb off v, fun hb => ?_⟩
  refine ⟨memWrite_idle hb .cmd v, memWrite_idle hb .keyLo v, memWrite_idle hb .keyHi v,
    memWrite_idle hb .frame v, memWrite_idle hb .idx v,
    ⟨_, memWrite_idle hb .dataWin v, windowWrite_length ..,
      fun b hlt => windowWrite_bufferBit_inside v hlt,
      fun k => windowWrite_bufferBit_outside v s.data⟩,
    fun off hal _ hoff => ?_⟩
  by_cases hlt : off < 0x40
  · obtain ⟨r, rfl⟩ := exists_offset_eq hal hlt
    exact (memWrite_idle hb r v).trans (writeReg_readOnly (access_ro_of_offset hoff) v s)
  · exact memWrite_unmapped (by omega) v s

/-- Settles O10: the lanes make up the word, and the decoder over bytes takes exactly them. -/
theorem byteLanesCarryOneWord : Obligations.ByteLanesCarryOneWord := by
  intro w rest i
  rw [decodeCmdBytes_lanesOfWord]
  cases decodeCmd w <;> simp [Except.map]

/-- Settles O47: STATUS, CAP, the unmapped offsets, and each other register by its own rule. -/
theorem busyReadsAreFreeValues : Obligations.BusyReadsAreFreeValues := by
  intro s hb
  have hstatus : memRead 0x04 s = _ := memRead_busy_status hb
  refine ⟨(memRead_status_getLsbD_zero s).trans hb, fun b hlt => ?_, memRead_busy_cap hb,
    fun off hoff _ => memRead_unmapped hoff s, fun off hal hlt h4 h18 => ?_, ?_⟩
  · rw [hstatus]
    exact busyStatusWord_getLsbD_succ _ hlt
  · obtain ⟨r, rfl⟩ := exists_offset_eq hal hlt
    exact memRead_busy_free hb (fun hr => h4 (congrArg HostReg.offset hr))
      (fun hr => h18 (congrArg HostReg.offset hr))
  · rw [hstatus]
    rfl

/-- Settles O48: the read is admitted, and logging it touches the Host's own fields. -/
theorem readsHaveNoSideEffects : Obligations.ReadsHaveNoSideEffects := by
  intro s off name rest hturn hprog hal hin
  refine ⟨?_, fun hb => by rw [memRead_idle_state hb]⟩
  rw [step_hostTurn hturn, hostTurn_read (s := s.setSched s.sched.tail) hprog,
    hostAccess_admitted (admitted_of_aligned hin hal), readAndLog_eq, memRead_setSched]
  rfl

/-- Settles O49: the write is admitted, and ignored. -/
theorem busyWritesAreIgnored : Obligations.BusyWritesAreIgnored := by
  intro s off v rest hb hturn hprog hal hin
  have hignored := memWrite_busy (s := s.setSched s.sched.tail) hb off v
  rw [step_hostTurn hturn, hostTurn_write (s := s.setSched s.sched.tail) hprog,
    hostAccess_admitted (admitted_of_aligned hin hal), hignored]
  rfl

/-- Settles O52: the three kinds of access. -/
theorem onlyAlignedWordAccessesRun : Obligations.OnlyAlignedWordAccessesRun := by
  intro s op rest off size hturn hprog hop
  obtain ⟨t, ht⟩ := hostTurn_access (s := s.setSched s.sched.tail) hprog hop
  rw [step_hostTurn hturn, ht]
  exact ⟨fun hin h => hostAccess_stuck hin h t, fun hout => hostAccess_outside hout size t,
    fun hin hsize hal => ⟨t, hostAccess_admitted (hsize ▸ admitted_of_aligned hin hal) t⟩⟩

end Sys2Proof.Machine

/-! A command in flight (R61, R62, R64): what the turns before its end leave in place, and how it
ends. -/

namespace Sys2Proof.Machine

section AgentFields

/-! ### The fields of the agents around the block -/

/-- `s` with the agents' fields of `a`: the schedule, the Host's program and reads, and the count of
free values. -/
def State.withAgents (s a : State) : State :=
  { s with sched := a.sched, prog := a.prog, reads := a.reads, draws := a.draws }

variable {s t u a : State} {i : Instr} {w : Word}

theorem checkedCommand_withAgents {n : Nat} {body : State → State}
    (hbody : body (s.withAgents a) = (body s).withAgents a) :
    checkedCommand n body (s.withAgents a) = (checkedCommand n body s).withAgents a := by
  have hsame : lengthCommandError n (s.withAgents a) = lengthCommandError n s := rfl
  cases he : lengthCommandError n s with
  | none =>
    rw [checkedCommand_of_noError he, checkedCommand_of_noError (hsame.trans he), hbody]
    rfl
  | some e =>
    rw [checkedCommand_of_error he, checkedCommand_of_error (hsame.trans he)]
    rfl

theorem genBody_withAgents (n : Nat) (s a : State) :
    genBody n (s.withAgents a) = (genBody n s).withAgents a := by
  rw [genBody_eq, genBody_eq]
  rfl

theorem encdecBody_withAgents (n : Nat) (s a : State) :
    encdecBody n (s.withAgents a) = (encdecBody n s).withAgents a := by
  have hlen : (s.withAgents a).ksLen = s.ksLen := rfl
  unfold encdecBody
  rw [hlen]
  split
  · rw [genBody_withAgents]
    rfl
  · rfl

/-- No meaning reads or writes an agent's field. -/
theorem exec_withAgents (h : exec i s = .next t) (a : State) :
    exec i (s.withAgents a) = .next (t.withAgents a) := by
  cases i with
  | gen n =>
    cases h
    exact congrArg Host.Outcome.next (checkedCommand_withAgents (genBody_withAgents n s a))
  | encdec n =>
    cases h
    exact congrArg Host.Outcome.next (checkedCommand_withAgents (encdecBody_withAgents n s a))
  | _ => cases h; rfl

theorem performCommand_withAgents (h : performCommand w s = .next u) (a : State) :
    performCommand w (s.withAgents a) = .next (u.withAgents a) := by
  unfold performCommand at h ⊢
  cases hd : decodeCmd w with
  | error e => simp only [hd] at h ⊢; cases h; rfl
  | ok i =>
    obtain ⟨t, ht⟩ := exec_next i s
    simp only [hd, ht, exec_withAgents ht a] at h ⊢
    cases h
    rfl

/-- A command word can be performed in every state, and leaves the block idle (R112). -/
theorem performCommand_next (w : Word) (s : State) :
    ∃ t, performCommand w s = .next t ∧ t.busy = false ∧ t.pend = none ∧ t.prog = s.prog := by
  obtain ⟨i, t, -, ht, h⟩ | ⟨-, -, h⟩ := performCommand_cases w s
  · exact ⟨_, h, rfl, rfl, (congrArg State.prog (exec_commandWritesOnly ht) :)⟩
  · exact ⟨_, h, rfl, rfl, rfl⟩

theorem readAndLog_withAgents (off : Nat) (name : Option String) (s : State) :
    readAndLog off name s = s.withAgents (readAndLog off name s) := by
  rw [readAndLog_eq]
  rfl

end AgentFields

section InFlight

variable {s t u m : State} {w : Word}

/-! ### What stays in place while a command is in flight -/

/-- The command in flight in `s` is in flight in `t`: the Engine's step starts from the same state,
but for the agents' fields (R61, R64). -/
def KeepsCommand (s t : State) : Prop := commandStart t = (commandStart s).withAgents t

theorem KeepsCommand.refl (s : State) : KeepsCommand s s := rfl

theorem KeepsCommand.trans (h : KeepsCommand s t) (h' : KeepsCommand t u) : KeepsCommand s u :=
  Eq.trans h' (congrArg (·.withAgents u) h)

theorem KeepsCommand.busy_eq (h : KeepsCommand s t) : t.busy = s.busy := (congrArg State.busy h :)

theorem KeepsCommand.pend_eq (h : KeepsCommand s t) : t.pend = s.pend := (congrArg State.pend h :)

/-- Nothing but the bank, the sequencer's progress and the agents' fields has changed. -/
theorem KeepsCommand.frame (h : KeepsCommand s t) : t = { s with
    bank := t.bank, cycles := t.cycles, sched := t.sched, prog := t.prog, reads := t.reads,
    draws := t.draws } :=
  congrArg (fun x => (x.setBank t.bank).setCycles t.cycles) h

theorem keepsCommand_of_withAgents (h : t = s.withAgents t) : KeepsCommand s t :=
  congrArg commandStart h

/-- The bank at which the command that is worked on began. -/
theorem startBank_of_active {i : Instr} (h : activeCommand s = some i) :
    startBank s = (cyclesOf i s).start := by
  unfold startBank cyclesOf
  cases s.cycles with
  | none => rfl
  | some c => simp only [h]

/-- A bank cycle keeps the bank at which the command began (R19). -/
theorem bankCycleTurn_keepsCommand (h : bankCycleTurn s = .next t) : KeepsCommand s t := by
  obtain hres | ⟨i, port, rest, ha, -, hres⟩ := bankCycleTurn_cases s
  · cases hres.symm.trans h
    exact KeepsCommand.refl s
  · cases hres.symm.trans h
    have hstart := startBank_of_active (s := (s.setCycles (some
      { start := (cyclesOf i s).start, left := rest })).setBank (s.bank.drive port)) ha
    exact congrArg (fun b => (s.setBank b).setCycles none)
      (hstart.trans (startBank_of_active ha).symm)

/-- What a turn of a busy block does that does not end the command. -/
structure Waits (s t : State) : Prop where
  keeps : KeepsCommand s t
  sched_eq : t.sched = s.sched
  prog_suffix : t.prog <:+ s.prog
  /-- A poll that is next does not end (R79). -/
  poll_stays : ∀ rest, s.prog = .poll :: rest → t.prog = s.prog

theorem readAndLog_prog (off : Nat) (name : Option String) (s : State) :
    (readAndLog off name s).prog = s.prog := by rw [readAndLog_eq]

theorem readAndLog_sched (off : Nat) (name : Option String) (s : State) :
    (readAndLog off name s).sched = s.sched := by rw [readAndLog_eq]

/-- While BUSY = 1 the Host's turn reads, or writes without effect (R55, R57). -/
theorem hostTurn_waits (hb : s.busy = true) (h : hostTurn s = .next t) : Waits s t := by
  obtain ⟨-, rfl⟩ | ⟨off, size, name, rest, hp, -, rfl⟩ |
    ⟨off, size, v, rest, hp, -, rfl⟩ | ⟨rest, hp, ⟨-, rfl⟩ | ⟨hbit, -⟩⟩ := hostTurn_cases h
  · exact ⟨.refl _, rfl, List.suffix_rfl, fun _ _ => rfl⟩
  · exact {
      keeps := keepsCommand_of_withAgents
        (congrArg (State.setProg rest) (readAndLog_withAgents off name s))
      sched_eq := readAndLog_sched off name s
      prog_suffix := hp ▸ List.suffix_cons _ rest
      poll_stays := fun _ hpoll => by rw [hp] at hpoll; cases hpoll }
  · rw [memWrite_busy hb]
    exact {
      keeps := keepsCommand_of_withAgents rfl
      sched_eq := rfl
      prog_suffix := hp ▸ List.suffix_cons _ rest
      poll_stays := fun _ hpoll => by rw [hp] at hpoll; cases hpoll }
  · exact {
      keeps := keepsCommand_of_withAgents (readAndLog_withAgents 4 none s)
      sched_eq := readAndLog_sched 4 none s
      prog_suffix := (readAndLog_prog 4 none s) ▸ List.suffix_rfl
      poll_stays := fun _ _ => readAndLog_prog 4 none s }
  · rw [memRead_status_getLsbD_zero, hb] at hbit
    cases hbit

theorem bankCycleTurn_waits (h : bankCycleTurn s = .next t) : Waits s t where
  keeps := bankCycleTurn_keepsCommand h
  sched_eq := (congrArg State.sched (bankCycleTurn_frame h) :)
  prog_suffix := (congrArg State.prog (bankCycleTurn_frame h) :) ▸ List.suffix_rfl
  poll_stays := fun _ _ => (congrArg State.prog (bankCycleTurn_frame h) :)

theorem engineTurn_busy (hb : s.busy = true) (hp : s.pend = some w) :
    engineTurn s = performCommand w (commandStart s) := by
  rw [engineTurn, if_pos hb, hp]

/-- A turn of a busy block: a reset, the Engine's, which performs the pending word, or one that
leaves the command in flight (R61). -/
theorem takeTurn_busy_cases {turn : Turn} (hb : s.busy = true) (h : takeTurn turn s = .next t) :
    (∃ emitted, turn = .reset emitted ∧ t = resetTurn emitted s) ∨
    (turn = .engine ∧ ∃ w, s.pend = some w ∧ performCommand w (commandStart s) = .next t) ∨
    ((turn = .host ∨ turn = .bankCycle) ∧ Waits s t) := by
  cases turn with
  | host => exact .inr (.inr ⟨.inl rfl, hostTurn_waits hb h⟩)
  | bankCycle => exact .inr (.inr ⟨.inr rfl, bankCycleTurn_waits h⟩)
  | reset emitted => cases h; exact .inl ⟨emitted, rfl, rfl⟩
  | engine =>
    obtain ⟨hidle, -⟩ | ⟨w, -, hp, hres⟩ | ⟨-, -, hres⟩ := engineTurn_cases s
    · rw [hb] at hidle
      cases hidle
    · exact .inr (.inl ⟨rfl, w, hp, hres.symm.trans h⟩)
    · cases hres.symm.trans h

/-! ### The end of a command -/

/-- The Engine's turn performs the command from the state at which it began. -/
theorem engineTurn_of_keepsCommand (hk : KeepsCommand s m) (hb : m.busy = true)
    (hp : m.pend = some w) (hu : performCommand w (commandStart s) = .next u) :
    engineTurn m = .next (u.withAgents m) := by
  rw [engineTurn_busy hb hp, hk]
  exact performCommand_withAgents hu m

/-- The Host's turn answers a next state when its operations are admitted. -/
theorem hostTurn_next_of_admitted (h : s.prog.all HostOp.isAdmitted = true) :
    ∃ t, hostTurn s = .next t := by
  cases hp : s.prog with
  | nil => exact ⟨s, by rw [hostTurn, hp]⟩
  | cons op rest =>
    have hop : op.isAdmitted = true := by
      rw [hp, List.all_cons, Bool.and_eq_true] at h
      exact h.1
    cases op with
    | read off size name => exact ⟨_, (hostTurn_read hp).trans (hostAccess_admitted hop _)⟩
    | write off size v => exact ⟨_, (hostTurn_write hp).trans (hostAccess_admitted hop _)⟩
    | poll => exact ⟨_, hostTurn_poll hp⟩

theorem all_isAdmitted_of_suffix {l l' : List HostOp} (h : l' <:+ l)
    (hall : l.all HostOp.isAdmitted = true) : l'.all HostOp.isAdmitted = true :=
  List.all_eq_true.mpr fun op hop => List.all_eq_true.mp hall op (h.subset hop)

/-- A scheduled turn of the Host or the sequencer leaves the command in flight. -/
theorem takeTurn_waits {turn : Turn} (hb : s.busy = true) (hhost : ∃ t, hostTurn s = .next t)
    (hturn : turn = .host ∨ turn = .bankCycle) : ∃ t, takeTurn turn s = .next t ∧ Waits s t := by
  obtain rfl | rfl := hturn
  · obtain ⟨t, ht⟩ := hhost
    exact ⟨t, ht, hostTurn_waits hb ht⟩
  · obtain hres | ⟨i, port, rest, -, -, hres⟩ := bankCycleTurn_cases s
    · exact ⟨_, hres, bankCycleTurn_waits hres⟩
    · exact ⟨_, hres, bankCycleTurn_waits hres⟩

/-- Within the schedule's length comes a reset or the Engine's turn, the command still in flight. -/
theorem ending_turn_within_schedule (hb : s.busy = true)
    (hall : s.prog.all HostOp.isAdmitted = true) :
    ∃ k ≤ s.sched.length, ∃ m, runFor k s = .next m ∧ KeepsCommand s m ∧
      ((currentTurn m).isReset = true ∨ currentTurn m = .engine) := by
  induction hl : s.sched generalizing s with
  | nil =>
    refine ⟨0, Nat.le_refl _, s, rfl, .refl s, .inr ?_⟩
    rw [currentTurn, hl]
    exact if_pos hb
  | cons turn l ih =>
    have hturn : currentTurn s = turn := by rw [currentTurn, hl]
    by_cases hwait : turn = .host ∨ turn = .bankCycle
    · obtain ⟨t, ht, hw⟩ := takeTurn_waits (s := s.setSched s.sched.tail) hb
        (hostTurn_next_of_admitted hall) hwait
      have hstep : step s = .next t := by rw [step_eq_takeTurn, hturn, ht]
      have hkeeps : KeepsCommand s t := hw.keeps
      have hsched : t.sched = l := hw.sched_eq.trans (congrArg List.tail hl)
      obtain ⟨k, hk, m, hm, hkm, hend⟩ := ih (hkeeps.busy_eq.trans hb)
        (all_isAdmitted_of_suffix hw.prog_suffix hall) hsched
      exact ⟨k + 1, by simpa using hk, m, (runFor_succ hstep).trans hm, hkeeps.trans hkm, hend⟩
    · refine ⟨0, Nat.zero_le _, s, rfl, .refl s, ?_⟩
      rw [hturn]
      cases turn with
      | host => exact absurd (.inl rfl) hwait
      | bankCycle => exact absurd (.inr rfl) hwait
      | engine => exact .inr rfl
      | reset emitted => exact .inl rfl

end InFlight

/-- Settles O58: the three kinds of turn that a busy block takes. -/
theorem busyEndsOnlyByEngineOrReset : Obligations.BusyEndsOnlyByEngineOrReset := by
  intro s t hb hstep
  rw [step_eq_takeTurn] at hstep
  obtain ⟨emitted, hturn, rfl⟩ | ⟨hturn, w, hp, hperf⟩ | ⟨-, hw⟩ :=
    takeTurn_busy_cases (s := s.setSched s.sched.tail) hb hstep
  · exact ⟨fun _ => .inl (by rw [hturn]; rfl), nofun, fun _ _ => rfl⟩
  · obtain ⟨u, hu, hidle, -, hprog⟩ := performCommand_next w (commandStart (s.setSched s.sched.tail))
    cases hu.symm.trans hperf
    exact ⟨fun _ => .inr ⟨hturn, w, hp, hperf⟩, fun ht => by simp [hidle] at ht, fun _ _ => hprog⟩
  · have hbusy : t.busy = true := hw.keeps.busy_eq.trans hb
    refine ⟨fun ht => by simp [hbusy] at ht, fun _ => ?_, hw.poll_stays⟩
    have hframe := hw.keeps.frame
    rwa [hw.sched_eq] at hframe

/-- Settles O43: the command waits in flight until a reset or the Engine's turn ends it. -/
theorem engineActsWithinTheSchedule : Obligations.EngineActsWithinTheSchedule := by
  intro s w _ hb hp hall
  obtain ⟨k, hk, m, hm, hkeeps, hend⟩ := ending_turn_within_schedule hb hall
  have hmb : m.busy = true := hkeeps.busy_eq.trans hb
  have hmp : m.pend = some w := hkeeps.pend_eq.trans hp
  obtain ⟨u, hu, hidle, hnone, -⟩ := performCommand_next w (commandStart s)
  cases hturn : currentTurn m with
  | engine =>
    have hstep : step m = .next (u.withAgents (m.setSched m.sched.tail)) := by
      rw [step_eq_takeTurn, hturn]
      exact engineTurn_of_keepsCommand (m := m.setSched m.sched.tail)
        (hkeeps.trans (keepsCommand_of_withAgents rfl)) hmb hmp hu
    exact ⟨k, hk, m, _, hm, hmb, hmp, hstep, hidle, hnone, .inr ⟨hturn, u, hu, rfl⟩⟩
  | reset emitted =>
    have hstep : step m = .next (resetTurn emitted (m.setSched m.sched.tail)) := by
      rw [step_eq_takeTurn, hturn]
      rfl
    exact ⟨k, hk, m, _, hm, hmb, hmp, hstep, rfl, rfl, .inl (by rw [hturn]; rfl)⟩
  | host => simp [hturn, Turn.isReset] at hend
  | bankCycle => simp [hturn, Turn.isReset] at hend

end Sys2Proof.Machine

/-! A host program that writes a command and polls (R61, R79): its three phases, and that every step
brings the end of the poll nearer. -/

namespace Sys2Proof.Machine

section Polling

variable {s s₀ t u : State} {w : Word} {rest : List HostOp} {left : Nat}

/-! ### Turns of an idle block -/

/-- With BUSY = 0 a turn that is neither the Host's nor a reset passes (R91, R112). -/
theorem takeTurn_idle {turn : Turn} (hb : s.busy = false) (hr : turn.isReset = false)
    (hhost : turn ≠ .host) : takeTurn turn s = .next s := by
  cases turn with
  | host => exact absurd rfl hhost
  | engine => simp [takeTurn, engineTurn, hb]
  | reset emitted => cases hr
  | bankCycle =>
    obtain h | ⟨i, -, -, ha, -, -⟩ := bankCycleTurn_cases s
    · exact h
    · rw [activeCommand_idle hb] at ha
      cases ha

/-- A turn other than the default one is taken off the schedule. -/
theorem sched_tail_lt (h : currentTurn s ≠ defaultTurn s) :
    s.sched.tail.length < s.sched.length := by
  unfold currentTurn at h
  cases hs : s.sched with
  | nil => simp [hs] at h
  | cons turn l => simp

/-- A schedule without a reset gives no reset turn. -/
theorem currentTurn_isReset (h : ∀ turn ∈ s.sched, turn.isReset = false) :
    (currentTurn s).isReset = false := by
  unfold currentTurn
  cases hs : s.sched with
  | nil =>
    simp only [defaultTurn]
    split <;> rfl
  | cons turn l => exact h turn (by simp [hs])

/-- A step on an idle block that is not the Host's moves the schedule on alone. -/
theorem step_idle (hb : s.busy = false) (hr : (currentTurn s).isReset = false)
    (hhost : currentTurn s ≠ .host) : step s = .next (s.setSched s.sched.tail) := by
  rw [step_eq_takeTurn]
  exact takeTurn_idle (s := s.setSched s.sched.tail) hb hr hhost

theorem defaultTurn_idle (hb : s.busy = false) : defaultTurn s = .host := by
  simp [defaultTurn, hb]

theorem defaultTurn_busy (hb : s.busy = true) : defaultTurn s = .engine := by
  simp [defaultTurn, hb]

/-! ### The phases of the program -/

/-- How far `.write 0x00 4 w :: .poll :: rest`, begun in `s₀`, has come in a state, where performing
the word leaves `u`; the number counts the phases still to end. -/
inductive PollPhase (s₀ : State) (w : Word) (rest : List HostOp) (u : State) : Nat → State → Prop
  | unwritten {t : State} (ht : t = s₀.setSched t.sched) : PollPhase s₀ w rest u 3 t
  | inFlight {t : State} (hkeeps : KeepsCommand (s₀.issue w) t) (hp : t.prog = .poll :: rest) :
      PollPhase s₀ w rest u 2 t
  | performed {t : State} (ht : t = u.withAgents t) (hp : t.prog = .poll :: rest) :
      PollPhase s₀ w rest u 1 t

/-- The poll has ended in `t`: the block is as in `u`, and the last read had BUSY = 0. -/
structure PollEnded (rest : List HostOp) (u t : State) : Prop where
  block_eq : t = u.withAgents t
  prog_eq : t.prog = rest
  last_read : ∃ v : Word, v.getLsbD 0 = false ∧
    t.reads.getLast? = some { off := 0x04, name := none, value := v }

/-- One step from `t`, a phase with `left` phases to end, ends the poll or comes nearer to it: the
turns of the schedule and the phases to end become fewer. -/
def PollAdvances (s₀ : State) (w : Word) (rest : List HostOp) (u : State) (left : Nat) (t : State) :
    Prop :=
  ∃ t', step t = .next t' ∧ t'.sched = t.sched.tail ∧
    (PollEnded rest u t' ∨ ∃ left', PollPhase s₀ w rest u left' t' ∧
      t'.sched.length + left' < t.sched.length + left)

theorem pollAdvances_of_nextPhase {t' : State} (hstep : step t = .next t')
    (hs : t'.sched = t.sched.tail) (hphase : PollPhase s₀ w rest u left t') :
    PollAdvances s₀ w rest u (left + 1) t := by
  refine ⟨t', hstep, hs, .inr ⟨left, hphase, ?_⟩⟩
  rw [hs, List.length_tail]
  omega

theorem pollAdvances_of_samePhase {t' : State} (hstep : step t = .next t')
    (hs : t'.sched = t.sched.tail) (hturn : currentTurn t ≠ defaultTurn t)
    (hphase : PollPhase s₀ w rest u left t') : PollAdvances s₀ w rest u left t := by
  refine ⟨t', hstep, hs, .inr ⟨left, hphase, ?_⟩⟩
  rw [hs]
  exact Nat.add_lt_add_right (sched_tail_lt hturn) left

/-- Before the write: the Host's turn issues the word, another turn passes. -/
theorem pollAdvances_unwritten (hb : s₀.busy = false)
    (hprog : s₀.prog = .write 0x00 4 w :: .poll :: rest) (ht : t = s₀.setSched t.sched)
    (hr : (currentTurn t).isReset = false) : PollAdvances s₀ w rest u 3 t := by
  have htb : t.busy = false := (congrArg State.busy ht).trans hb
  have htp : t.prog = .write 0x00 4 w :: .poll :: rest := (congrArg State.prog ht).trans hprog
  by_cases hturn : currentTurn t = .host
  · have hissue := memWrite_idle (s := t.setSched t.sched.tail) htb .cmd w
    have hstep : step t = .next (((t.setSched t.sched.tail).issue w).setProg (.poll :: rest)) := by
      rw [step_hostTurn hturn, hostTurn_write (s := t.setSched t.sched.tail) htp,
        hostAccess_admitted rfl]
      exact congrArg (fun x => Host.Outcome.next (State.setProg (.poll :: rest) x)) hissue
    refine pollAdvances_of_nextPhase hstep rfl (.inFlight (keepsCommand_of_withAgents ?_) rfl)
    rw [ht]
    rfl
  · have hne : currentTurn t ≠ defaultTurn t := by rwa [defaultTurn_idle htb]
    refine pollAdvances_of_samePhase (step_idle htb hr hturn) rfl hne (.unwritten ?_)
    exact (congrArg (State.setSched t.sched.tail) ht :)

/-- In flight: the Engine's turn performs the command, another turn waits. -/
theorem pollAdvances_inFlight (hu : performCommand w (commandStart (s₀.issue w)) = .next u)
    (hkeeps : KeepsCommand (s₀.issue w) t) (hp : t.prog = .poll :: rest)
    (hr : (currentTurn t).isReset = false) : PollAdvances s₀ w rest u 2 t := by
  have htb : t.busy = true := hkeeps.busy_eq
  have hkeeps' : KeepsCommand (s₀.issue w) (t.setSched t.sched.tail) :=
    hkeeps.trans (keepsCommand_of_withAgents rfl)
  by_cases hturn : currentTurn t = .engine
  · have hstep : step t = .next (u.withAgents (t.setSched t.sched.tail)) := by
      rw [step_eq_takeTurn, hturn]
      exact engineTurn_of_keepsCommand hkeeps' htb hkeeps.pend_eq hu
    exact pollAdvances_of_nextPhase hstep rfl (.performed rfl hp)
  · have hwait : currentTurn t = .host ∨ currentTurn t = .bankCycle := by
      cases hc : currentTurn t with
      | host => exact .inl rfl
      | bankCycle => exact .inr rfl
      | engine => exact absurd hc hturn
      | reset emitted => rw [hc] at hr; cases hr
    obtain ⟨t', ht', hw⟩ := takeTurn_waits (s := t.setSched t.sched.tail) htb
      ⟨_, hostTurn_poll hp⟩ hwait
    have hne : currentTurn t ≠ defaultTurn t := by rwa [defaultTurn_busy htb]
    exact pollAdvances_of_samePhase ((step_eq_takeTurn t).trans ht') hw.sched_eq hne
      (.inFlight (hkeeps'.trans hw.keeps) ((hw.poll_stays rest hp).trans hp))

/-- After the Engine's step: the Host's turn ends the poll, another turn passes. -/
theorem pollAdvances_performed (hb : u.busy = false) (ht : t = u.withAgents t)
    (hp : t.prog = .poll :: rest) (hr : (currentTurn t).isReset = false) :
    PollAdvances s₀ w rest u 1 t := by
  have htb : t.busy = false := (congrArg State.busy ht).trans hb
  have ht' : t.setSched t.sched.tail = u.withAgents (t.setSched t.sched.tail) :=
    congrArg (State.setSched t.sched.tail) ht
  by_cases hturn : currentTurn t = .host
  · have hstep : step t = .next ((readAndLog 4 none (t.setSched t.sched.tail)).setProg rest) := by
      rw [step_hostTurn hturn, hostTurn_poll (s := t.setSched t.sched.tail) hp]
      exact congrArg Host.Outcome.next (if_neg (by simp [htb]))
    refine ⟨_, hstep, readAndLog_sched 4 none _, .inl ⟨?_, rfl, _, ?_, List.getLast?_concat ..⟩⟩
    · rw [readAndLog_withAgents, ht']
      rfl
    · exact (memRead_status_getLsbD_zero _).trans htb
  · have hne : currentTurn t ≠ defaultTurn t := by rwa [defaultTurn_idle htb]
    exact pollAdvances_of_samePhase (step_idle htb hr hturn) rfl hne (.performed ht' hp)

theorem PollPhase.left_pos (h : PollPhase s₀ w rest u left t) : 0 < left := by
  cases h <;> decide

/-- In no phase has the poll ended. -/
theorem PollPhase.prog_ne (hprog : s₀.prog = .write 0x00 4 w :: .poll :: rest)
    (h : PollPhase s₀ w rest u left t) : t.prog ≠ rest := by
  intro heq
  have hlen := congrArg List.length heq
  cases h with
  | unwritten ht =>
    have hp : t.prog = .write 0x00 4 w :: .poll :: rest := (congrArg State.prog ht).trans hprog
    simp only [hp, List.length_cons] at hlen
    omega
  | inFlight _ hp => simp [hp] at hlen
  | performed _ hp => simp [hp] at hlen

/-- In every phase one step brings the end of the poll nearer. -/
theorem PollPhase.advances (hb : s₀.busy = false)
    (hprog : s₀.prog = .write 0x00 4 w :: .poll :: rest)
    (hu : performCommand w (commandStart (s₀.issue w)) = .next u) (hub : u.busy = false)
    (hr : (currentTurn t).isReset = false) (h : PollPhase s₀ w rest u left t) :
    PollAdvances s₀ w rest u left t := by
  cases h with
  | unwritten ht => exact pollAdvances_unwritten hb hprog ht hr
  | inFlight hkeeps hp => exact pollAdvances_inFlight hu hkeeps hp hr
  | performed ht hp => exact pollAdvances_performed hub ht hp hr

/-- A run from a phase comes to the end of the poll, and to no earlier state in which the Host is
past it, within the turns of the schedule and the phases to end. -/
theorem PollPhase.ends (hb : s₀.busy = false)
    (hprog : s₀.prog = .write 0x00 4 w :: .poll :: rest)
    (hu : performCommand w (commandStart (s₀.issue w)) = .next u) (hub : u.busy = false) (n : Nat)
    (hn : t.sched.length + left ≤ n) (hr : ∀ turn ∈ t.sched, turn.isReset = false)
    (h : PollPhase s₀ w rest u left t) :
    ∃ k ≤ n, (∀ j < k, ∃ m, runFor j t = .next m ∧ m.prog ≠ rest) ∧
      ∃ t', runFor k t = .next t' ∧ PollEnded rest u t' := by
  induction n generalizing t left with
  | zero => exact absurd h.left_pos (by omega)
  | succ n ih =>
    obtain ⟨t', hstep, hs, hnext⟩ := h.advances hb hprog hu hub (currentTurn_isReset hr)
    obtain ⟨k, hk, hbefore, t'', hrun, hend⟩ : ∃ k ≤ n,
        (∀ j < k, ∃ m, runFor j t' = .next m ∧ m.prog ≠ rest) ∧
        ∃ t'', runFor k t' = .next t'' ∧ PollEnded rest u t'' := by
      obtain hend | ⟨left', h', hless⟩ := hnext
      · exact ⟨0, Nat.zero_le n, nofun, t', rfl, hend⟩
      · exact ih (by omega) (fun turn hturn => hr turn (List.mem_of_mem_tail (hs ▸ hturn))) h'
    refine ⟨k + 1, Nat.succ_le_succ hk, fun j hj => ?_, t'', (runFor_succ hstep).trans hrun, hend⟩
    cases j with
    | zero => exact ⟨t, rfl, h.prog_ne hprog⟩
    | succ j =>
      obtain ⟨m, hm, hne⟩ := hbefore j (Nat.lt_of_succ_lt_succ hj)
      exact ⟨m, (runFor_succ hstep).trans hm, hne⟩

end Polling

/-- Settles O56: the program's three phases, each ended by its own default turn. -/
theorem polledCommandIsPerformed : Obligations.PolledCommandIsPerformed := by
  intro s w rest hinv hb hprog hr
  obtain ⟨u, hu, hub, -, -⟩ := performCommand_next w (s.issue w)
  have hstart : commandStart (s.issue w) = s.issue w :=
    commandStart_none (hinv.cycles_of_idle hb)
  obtain ⟨k, hk, hbefore, t, hrun, hend⟩ := PollPhase.ends hb hprog (hstart.symm ▸ hu) hub _
    (Nat.le_refl _) hr (.unwritten rfl : PollPhase s w rest u 3 s)
  obtain ⟨v, hv, hlast⟩ := hend.last_read
  refine ⟨k, hk, hbefore, u, t, v, hu, hrun, hv, hlast, ?_⟩
  have hblock := hend.block_eq
  rwa [State.withAgents, hend.prog_eq] at hblock

end Sys2Proof.Machine

/-! The encodings (R69 to R84): the two decoders and the encoder, a bank cycle and a poll, one turn
each, and the pseudo-instructions that write strings. -/

namespace Sys2Proof.Machine

section CommandWords

/-! ### Command words -/

@[simp] theorem cmdOp_packCmd (arg : BitVec 24) (op : BitVec 8) : cmdOp (packCmd arg op) = op :=
  BitVec.extractLsb'_append_eq_right

@[simp] theorem cmdArg_packCmd (arg : BitVec 24) (op : BitVec 8) :
    cmdArg (packCmd arg op) = arg :=
  BitVec.extractLsb'_append_eq_left

/-- Everything the command decoder can answer, by OP and, under OP = 0x01, the reserved bits. -/
theorem decodeCmd_cases (w : Word) :
    (cmdOp w = 0x01#8 ∧ cmdInitReserved w = 0#23 ∧ decodeCmd w = .ok (.init (cmdFe w))) ∨
    (cmdOp w = 0x01#8 ∧ cmdInitReserved w ≠ 0#23 ∧
      decodeCmd w = .error (.reservedInitBits (cmdInitReserved w))) ∨
    (cmdOp w = 0x02#8 ∧ decodeCmd w = .ok (.gen (cmdArg w).toNat)) ∨
    (cmdOp w = 0x03#8 ∧ decodeCmd w = .ok (.encdec (cmdArg w).toNat)) ∨
    (cmdOp w ≠ 0x01#8 ∧ cmdOp w ≠ 0x02#8 ∧ cmdOp w ≠ 0x03#8 ∧
      decodeCmd w = .error (.reservedOp (cmdOp w))) := by
  unfold decodeCmd
  by_cases h1 : cmdOp w = 0x01#8
  · by_cases hres : cmdInitReserved w = 0#23
    · exact .inl ⟨h1, hres, by simp [h1, hres]⟩
    · exact .inr (.inl ⟨h1, hres, by simp [h1, hres]⟩)
  · by_cases h2 : cmdOp w = 0x02#8
    · exact .inr (.inr (.inl ⟨h2, by simp [h2]⟩))
    · by_cases h3 : cmdOp w = 0x03#8
      · exact .inr (.inr (.inr (.inl ⟨h3, by simp [h3]⟩)))
      · exact .inr (.inr (.inr (.inr ⟨h1, h2, h3, by simp [h1, h2, h3]⟩)))

/-- R75 in the decoder's own fields: which words are each command, and which are ILLEGAL. -/
theorem decodeCmd_iff (w : Word) :
    (∀ fe, decodeCmd w = .ok (.init fe) ↔
      cmdOp w = 0x01#8 ∧ cmdInitReserved w = 0#23 ∧ cmdFe w = fe) ∧
    (∀ n, decodeCmd w = .ok (.gen n) ↔ cmdOp w = 0x02#8 ∧ n = (cmdArg w).toNat) ∧
    (∀ n, decodeCmd w = .ok (.encdec n) ↔ cmdOp w = 0x03#8 ∧ n = (cmdArg w).toNat) ∧
    ((∃ e, decodeCmd w = .error e) ↔
      ¬ (cmdOp w = 0x01#8 ∧ cmdInitReserved w = 0#23) ∧ cmdOp w ≠ 0x02#8 ∧ cmdOp w ≠ 0x03#8) := by
  obtain ⟨hinit, hzero, hd⟩ | ⟨hinit, hset, hd⟩ | ⟨hgen, hd⟩ | ⟨hencdec, hd⟩ |
    ⟨hninit, hngen, hnencdec, hd⟩ := decodeCmd_cases w
  · simp [hd, hinit, hzero]
  · simp [hd, hinit, hset]
  · simp [hd, hgen, @eq_comm Nat]
  · simp [hd, hencdec, @eq_comm Nat]
  · simp [hd, hninit, hngen, hnencdec]

/-- A length within R72's bound comes back from ARG. -/
theorem toNat_ofNat_of_le_maxLength {n : Nat} (h : n ≤ maxLength) :
    (BitVec.ofNat 24 n).toNat = n := by
  rw [BitVec.toNat_ofNat]
  exact Nat.mod_eq_of_lt (Nat.lt_succ_of_le h)

theorem decodeCmd_init (fe : Bool) :
    decodeCmd (packCmd (if fe then 1#24 else 0#24) 0x01#8) = .ok (.init fe) := by
  cases fe <;> rfl

theorem decodeCmd_gen {n : Nat} (h : n ≤ maxLength) :
    decodeCmd (packCmd (BitVec.ofNat 24 n) 0x02#8) = .ok (.gen n) := by
  simp [decodeCmd, toNat_ofNat_of_le_maxLength h]

theorem decodeCmd_encdec {n : Nat} (h : n ≤ maxLength) :
    decodeCmd (packCmd (BitVec.ofNat 24 n) 0x03#8) = .ok (.encdec n) := by
  simp [decodeCmd, toNat_ofNat_of_le_maxLength h]

theorem decodePort_load (din : Bool) : decodePort (packPort din 0b10#2) = .load din := by
  cases din <;> rfl

/-- Decoding inverts encoding on the instructions whose operands fit their fields. -/
theorem decode_encode {i : Instr} (h : i.wf = true) : decode (encode i) = .ok i := by
  cases i with
  | init fe => exact decodeCmd_init fe
  | gen n => exact decodeCmd_gen (of_decide_eq_true h)
  | encdec n => exact decodeCmd_encdec (of_decide_eq_true h)
  | hold => rfl
  | clear => rfl
  | load din => exact congrArg Except.ok (decodePort_load din)
  | mstep => rfl

/-- A command line whose instruction has the word `w`: the Host writes `w` to CMD, and `w` decodes
to the instruction (R75, R77). -/
theorem assemble_and_decode {c : AsmCommand} {w : Word} (hwf : c.instr.wf = true)
    (henc : encode c.instr = .cmd32 w) :
    c.assemble = .ok [.write 0 4 w] ∧ decodeCmd w = .ok c.instr := by
  have hdecode := decode_encode hwf
  rw [henc] at hdecode
  refine ⟨?_, hdecode⟩
  rw [AsmCommand.assemble, if_pos hwf, henc]
  rfl

end CommandWords

/-- Settles O6: the round trip of each format, constructor by constructor. -/
theorem decodeEncodeRoundTrip : Obligations.DecodeEncodeRoundTrip := fun _ h => decode_encode h

/-- Settles O7: the bit fields of R75 are those the decoder reads; the examples compute. -/
theorem commandDecoderIsExact : Obligations.CommandDecoderIsExact := by
  intro w
  obtain ⟨hinit, hgen, hencdec, hillegal⟩ := decodeCmd_iff w
  exact ⟨hinit, hgen, hencdec, hillegal, decodeCmd_gen (n := 10) (by decide), ⟨_, rfl⟩, ⟨_, rfl⟩⟩

/-- Settles O8: the eight words, one by one. -/
theorem portDecoderIsExact : Obligations.PortDecoderIsExact := by
  refine ⟨?_, ?_, ?_, ?_, ?_, ?_, ?_, ?_⟩ <;> decide

/-- Settles O9: the rows of the table that encode an instruction by the round trip, the two ILLEGAL
words and the two port words by the decoder. -/
theorem workedEncodingsDecode : Obligations.WorkedEncodingsDecode := by
  obtain ⟨ainit, dinit⟩ := assemble_and_decode (c := .init) rfl rfl
  obtain ⟨ainitF, dinitF⟩ := assemble_and_decode (c := .initF) rfl rfl
  obtain ⟨agen10, dgen10⟩ := assemble_and_decode (c := .gen 10) rfl rfl
  obtain ⟨agen0, dgen0⟩ := assemble_and_decode (c := .gen 0) rfl rfl
  obtain ⟨agen228, dgen228⟩ := assemble_and_decode (c := .gen 228) rfl rfl
  obtain ⟨aencdec4, dencdec4⟩ := assemble_and_decode (c := .encdec 4) rfl rfl
  obtain ⟨aencdecMax, dencdecMax⟩ := assemble_and_decode (c := .encdec 16777215) rfl rfl
  refine ⟨ainit, ainitF, agen10, agen0, agen228, aencdec4, aencdecMax,
    dinit, dinitF, dgen10, dgen0, dgen228, dencdec4, dencdecMax, ?_, ?_, ?_, ?_⟩ <;> decide

section BankCycles

variable {s : State} {i : Instr} {rest : List Turn}

/-! ### Bank cycles -/

theorem cyclesOf_some {c : BankCycles} (h : s.cycles = some c) : cyclesOf i s = c := by
  rw [cyclesOf, h]

theorem cyclesOf_none (h : s.cycles = none) :
    cyclesOf i s = { start := s.bank, left := portSequence s i } := by
  rw [cyclesOf, h]

theorem cyclesOf_setSched (i : Instr) (s : State) (l : List Turn) :
    cyclesOf i (s.setSched l) = cyclesOf i s := rfl

/-- A step on the sequencer's turn. -/
theorem step_bankCycle (h : s.sched = .bankCycle :: rest) :
    step s = bankCycleTurn (s.setSched rest) := by
  rw [step, nextTurn, h]
  rfl

/-- With no command in flight the port carries HOLD (R91). -/
theorem step_bankCycle_inactive (hs : s.sched = .bankCycle :: rest) (ha : activeCommand s = none) :
    step s = exec .hold { s with sched := rest } := by
  rw [step_bankCycle hs, bankCycleTurn, activeCommand_setSched, ha]
  rfl

/-- With every word of the command driven the port carries HOLD (R91). -/
theorem step_bankCycle_done {b : Bank} (hs : s.sched = .bankCycle :: rest)
    (ha : activeCommand s = some i) (h : cyclesOf i s = { start := b, left := [] }) :
    step s = exec .hold { s with sched := rest } := by
  rw [step_bankCycle hs, bankCycleTurn, activeCommand_setSched, ha]
  simp only [cyclesOf_setSched, h]
  rfl

/-- The command's next word is driven and taken off (R80, R92). -/
theorem step_bankCycle_drives {b : Bank} {p : PortWord} {ps : List PortWord}
    (hs : s.sched = .bankCycle :: rest) (ha : activeCommand s = some i)
    (h : cyclesOf i s = { start := b, left := p :: ps }) :
    step s = exec (decodePort p)
      { s with sched := rest, cycles := some { start := b, left := ps } } := by
  rw [step_bankCycle hs, bankCycleTurn, activeCommand_setSched, ha]
  simp only [cyclesOf_setSched, h]
  rfl

end BankCycles

/-- Settles O14: no command in flight, and then the words left of the one in flight, whether its
bank cycles have begun or not. -/
theorem bankCycleRunsPortOperation : Obligations.BankCycleRunsPortOperation := by
  intro s rest hs
  refine ⟨step_bankCycle_inactive hs, fun i ha => ⟨?_, ?_, ?_, ?_⟩⟩
  · rintro ⟨b, _⟩ p ps hc rfl
    exact step_bankCycle_drives hs ha (cyclesOf_some hc)
  · rintro ⟨b, _⟩ hc rfl
    exact step_bankCycle_done hs ha (cyclesOf_some hc)
  · intro p ps hc hl
    exact step_bankCycle_drives hs ha (hl ▸ cyclesOf_none hc)
  · intro hc hl
    exact step_bankCycle_done hs ha (hl ▸ cyclesOf_none hc)

section Polls

variable {s : State} {rest : List HostOp}

/-! ### One turn of a poll -/

/-- While BUSY = 1 a poll reads STATUS, which draws a free value, and stays (R56, R79). -/
theorem hostTurn_poll_busy (hb : s.busy = true) (h : s.prog = .poll :: rest) :
    hostTurn s = .next { s with
      draws := s.draws + 1
      reads := s.reads ++ [{ off := 4, name := none, value := (memRead 4 s).1 }] } := by
  have hdraw : (memRead 4 s).2.draws = s.draws + 1 := congrArg (·.2.draws) (memRead_busy_status hb)
  rw [hostTurn_poll h, if_pos hb, readAndLog_eq, hdraw]

/-- With BUSY = 0 a poll reads STATUS once and is over (R79). -/
theorem hostTurn_poll_idle (hb : s.busy = false) (h : s.prog = .poll :: rest) :
    hostTurn s = .next { s with
      prog := rest
      reads := s.reads ++ [{ off := 4, name := none, value := (memRead 4 s).1 }] } := by
  rw [hostTurn_poll h, if_neg (by simp [hb]), readAndLog_eq, memRead_idle_state hb]
  rfl

end Polls

/-- Settles O53: one read of STATUS, whose bit 0 is BUSY. -/
theorem pollWaitsForBusyClear : Obligations.PollWaitsForBusyClear := by
  intro s rest hturn hprog
  have hbit := memRead_status_getLsbD_zero (s.setSched s.sched.tail)
  rw [step_hostTurn hturn]
  exact ⟨fun hb => ⟨_, hbit.trans hb, hostTurn_poll_busy hb hprog⟩,
    fun hb => ⟨_, hbit.trans hb, hostTurn_poll_idle hb hprog⟩⟩

section StringWrites

variable {s : State} {k : Nat} {d : List Bool} {rest : List HostOp}

/-! ### Strings written by the Host -/

theorem stringWord_getLsbD (d : List Bool) (first : Nat) {b : Nat} (h : b < 32) :
    (stringWord d first).getLsbD b = bufferBit d (first + b) := by
  rw [stringWord, bitsOf_getLsbD, decide_eq_true h, Bool.true_and]

theorem bufferBit_of_length_le (h : d.length ≤ k) : bufferBit d k = false :=
  List.getD_eq_default _ _ h

/-- A write reads nothing of the Host's program. -/
theorem writeReg_setProg (r : HostReg) (v : Word) (s : State) (l : List HostOp) :
    writeReg r v (s.setProg l) = (writeReg r v s).setProg l := by cases r <;> rfl

theorem writeOp_admitted (r : HostReg) : admitted r.offset 4 = true := by cases r <;> rfl

/-- On an idle block with an empty schedule the Host performs its next write (R59, log 2). -/
theorem runFor_writeOp (hb : s.busy = false) (hs : s.sched = []) (r : HostReg) (v : Word)
    (rest : List HostOp) (k : Nat) :
    runFor (k + 1) (s.setProg (writeOp r v :: rest)) = runFor k ((writeReg r v s).setProg rest) := by
  have hturn : currentTurn (s.setProg (writeOp r v :: rest)) = .host := by
    simp [currentTurn, hs, defaultTurn, hb]
  have hsched : s.setSched s.sched.tail = s := by cases s; cases hs; rfl
  have hwrite : memWrite r.offset v (s.setProg (writeOp r v :: rest)) =
      (writeReg r v s).setProg (writeOp r v :: rest) :=
    (memWrite_idle (s := s.setProg (writeOp r v :: rest)) hb r v).trans (writeReg_setProg r v s _)
  apply runFor_succ
  rw [step_hostTurn hturn]
  change hostTurn ((s.setSched s.sched.tail).setProg (writeOp r v :: rest)) = _
  rw [hsched, hostTurn_write rfl, hostAccess_admitted (writeOp_admitted r), hwrite]
  rfl

/-! ### setkey and setframe -/

theorem assemble_setkey {key : List Bool} {cap : Nat} {ops : List HostOp}
    (h : (AsmLine.setkey key).assemble cap = .ok ops) :
    ops = [writeOp .keyLo (stringWord key 0), writeOp .keyHi (stringWord key 32)] := by
  simp only [AsmLine.assemble] at h
  split at h <;> cases h
  rfl

theorem assemble_setframe {f : List Bool} {cap : Nat} {ops : List HostOp}
    (h : (AsmLine.setframe f).assemble cap = .ok ops) :
    ops = [writeOp .frame (stringWord f 0)] := by
  simp only [AsmLine.assemble] at h
  split at h <;> cases h
  rfl

/-- KEY after a write of both its words (R35). -/
theorem writeReg_keyHi_keyLo (lo hi : Word) (s : State) :
    writeReg .keyHi hi (writeReg .keyLo lo s) = s.setKey (hi ++ lo) :=
  congrArg (fun x : Word => s.setKey (hi ++ x)) BitVec.extractLsb'_append_eq_right

/-- Two words of a string side by side are 64 bits of it in order. -/
theorem stringWord_append_getLsbD (d : List Bool) {j : Nat} (h : j < 64) :
    (stringWord d 32 ++ stringWord d 0).getLsbD j = bufferBit d j := by
  rw [BitVec.getLsbD_append]
  split
  · rw [stringWord_getLsbD d 0 ‹_›, Nat.zero_add]
  · rw [stringWord_getLsbD d 32 (by omega), Nat.add_sub_cancel' (by omega)]

/-! ### wrdata -/

/-- The two writes of word `w` of a string: `setidx w` and `wr DATA_WIN` (R79). -/
def wordOps (d : List Bool) (w : Nat) : List HostOp :=
  [writeOp .idx (BitVec.ofNat 32 w), writeOp .dataWin (stringWord d (32 * w))]

/-- How many words a string has. -/
def wordCount (d : List Bool) : Nat := (d.length + 31) / 32

/-- The state after word `w` of the string has been written. -/
def writeWord (d : List Bool) (s : State) (w : Nat) : State :=
  (s.setIdx (BitVec.ofNat 24 w)).setData
    (windowWrite (BitVec.ofNat 24 w) s.ksCap (stringWord d (32 * w)) s.data)

theorem assemble_wrdata {cap : Nat} {ops : List HostOp}
    (h : (AsmLine.wrdata d).assemble cap = .ok ops) :
    d.length ≤ cap ∧ ops = (List.range (wordCount d)).flatMap (wordOps d) := by
  simp only [AsmLine.assemble] at h
  split at h <;> cases h
  exact ⟨‹_›, rfl⟩

theorem writeReg_dataWin_idx (d : List Bool) (w : Nat) (s : State) :
    writeReg .dataWin (stringWord d (32 * w)) (writeReg .idx (BitVec.ofNat 32 w) s) =
      writeWord d s w := by
  have hidx : (BitVec.ofNat 32 w).extractLsb' 0 24 = BitVec.ofNat 24 w := by
    rw [← BitVec.setWidth_eq_extractLsb' (by decide), BitVec.setWidth_ofNat_of_le (by decide)]
  simp only [writeReg, writeWord, hidx]
  rfl

/-- The Host writes the words `ws` of a string, one after the other. -/
theorem runFor_wordOps (hb : s.busy = false) (hs : s.sched = []) (d : List Bool)
    (rest : List HostOp) (ws : List Nat) :
    runFor (ws.flatMap (wordOps d)).length (s.setProg (ws.flatMap (wordOps d) ++ rest)) =
      .next ((ws.foldl (writeWord d) s).setProg rest) := by
  induction ws generalizing s with
  | nil => rfl
  | cons w ws ih =>
    have hidx := runFor_writeOp hb hs .idx (BitVec.ofNat 32 w)
      (writeOp .dataWin (stringWord d (32 * w)) :: (ws.flatMap (wordOps d) ++ rest))
      ((ws.flatMap (wordOps d)).length + 1)
    have hdata := runFor_writeOp (s := writeReg .idx (BitVec.ofNat 32 w) s) hb hs .dataWin
      (stringWord d (32 * w)) (ws.flatMap (wordOps d) ++ rest) (ws.flatMap (wordOps d)).length
    rw [writeReg_dataWin_idx] at hdata
    exact (hidx.trans hdata).trans (ih (s := writeWord d s w) hb hs)

/-- Writing words of a string changes DATA and IDX alone. -/
theorem foldl_writeWord_frame (d : List Bool) (ws : List Nat) (s : State) :
    ws.foldl (writeWord d) s = { s with
      data := (ws.foldl (writeWord d) s).data, idx := (ws.foldl (writeWord d) s).idx } := by
  induction ws generalizing s with
  | nil => rfl
  | cons w ws ih => exact ih (writeWord d s w)

theorem foldl_writeWord_data_length (d : List Bool) (ws : List Nat) (s : State) :
    (ws.foldl (writeWord d) s).data.length = s.data.length := by
  induction ws generalizing s with
  | nil => rfl
  | cons w ws ih => exact (ih (writeWord d s w)).trans (windowWrite_length ..)

/-- One word written: its bits of DATA are those of the string, the other words stay (R42). -/
theorem writeWord_bufferBit {w : Nat} (hw : w < 2 ^ 24) (hlen : s.data.length = s.ksCap)
    (hd : d.length ≤ s.ksCap) (k : Nat) :
    bufferBit (writeWord d s w).data k =
      if k / 32 = w then bufferBit d k else bufferBit s.data k := by
  have hidx : (BitVec.ofNat 24 w).toNat = w := by
    rw [BitVec.toNat_ofNat, Nat.mod_eq_of_lt hw]
  change bufferBit (windowWrite _ _ _ _) k = _
  rw [windowWrite_bufferBit, hidx, hlen]
  by_cases hword : k / 32 = w
  · have hk : 32 * w + k % 32 = k := by omega
    by_cases hcap : k < s.ksCap
    · rw [if_pos ⟨hcap, hcap, hword⟩, if_pos hword,
        stringWord_getLsbD d _ (Nat.mod_lt k (by decide)), hk]
    · rw [if_neg (fun h => hcap h.1), if_pos hword, bufferBit_of_length_le (by omega),
        bufferBit_of_length_le (by omega)]
  · rw [if_neg (fun h => hword h.2.2), if_neg hword]

/-- DATA after the first `n` words of a string: its bits, then what was there. -/
theorem foldl_writeWord_bufferBit {n : Nat} (hn : n ≤ 2 ^ 24) (hlen : s.data.length = s.ksCap)
    (hd : d.length ≤ s.ksCap) (k : Nat) :
    bufferBit ((List.range n).foldl (writeWord d) s).data k =
      if k < 32 * n then bufferBit d k else bufferBit s.data k := by
  induction n with
  | zero => rfl
  | succ n ih =>
    have hcap : ((List.range n).foldl (writeWord d) s).ksCap = s.ksCap := by
      rw [foldl_writeWord_frame]
      rfl
    rw [List.range_succ, List.foldl_append]
    refine (writeWord_bufferBit hn ?_ (hcap ▸ hd) k).trans ?_
    · rw [foldl_writeWord_data_length, hcap, hlen]
    · rw [ih (by omega)]
      obtain h | h | h := lt_trichotomy (k / 32) n
      · rw [if_neg h.ne, if_pos (by omega), if_pos (by omega)]
      · rw [if_pos h, if_pos (by omega)]
      · rw [if_neg h.ne', if_neg (by omega), if_neg (by omega)]

theorem length_le_wordCount (d : List Bool) : d.length ≤ 32 * wordCount d := by
  unfold wordCount
  omega

/-- No string within the capacity has more words than IDX can select (R6, R42). -/
theorem wordCount_le (h : d.length ≤ s.ksCap) : wordCount d ≤ 2 ^ 24 := by
  have hcap : s.ksCap < 2 ^ 24 := s.cap.isLt
  unfold wordCount
  omega

end StringWrites

/-- Settles O54: the words of the string side by side are the key, and the low bits of its first
word are the frame. -/
theorem setkeyAndSetframeKeepStringOrder : Obligations.SetkeyAndSetframeKeepStringOrder := by
  refine ⟨fun s key ops rest cap hb hops => ?_, fun s f ops rest cap hb hops => ?_⟩
  · cases assemble_setkey hops
    refine ⟨stringWord key 32 ++ stringWord key 0, ?_, fun j => stringWord_append_getLsbD key⟩
    have hlo := runFor_writeOp (s := s.setSched []) hb rfl .keyLo (stringWord key 0)
      (writeOp .keyHi (stringWord key 32) :: rest) 1
    have hhi := runFor_writeOp (s := writeReg .keyLo (stringWord key 0) (s.setSched [])) hb rfl
      .keyHi (stringWord key 32) rest 0
    rw [writeReg_keyHi_keyLo] at hhi
    exact hlo.trans hhi
  · cases assemble_setframe hops
    refine ⟨(stringWord f 0).extractLsb' 0 22,
      runFor_writeOp (s := s.setSched []) hb rfl .frame (stringWord f 0) rest 0, fun j hj => ?_⟩
    rw [BitVec.getLsbD_extractLsb', stringWord_getLsbD f 0 (by omega)]
    simp [hj, bufferBit]

/-- Settles O55: word after word, DATA holds the string as far as words have been written. -/
theorem wrdataWritesStringInOrder : Obligations.WrdataWritesStringInOrder := by
  intro s d ops rest hinv hb hops
  obtain ⟨hd, rfl⟩ := assemble_wrdata hops
  have hrun := runFor_wordOps (s := s.setSched []) hb rfl d rest (List.range (wordCount d))
  rw [foldl_writeWord_frame] at hrun
  have hbit := foldl_writeWord_bufferBit (s := s.setSched []) (wordCount_le hd) hinv.dataLength hd
  refine ⟨_, _, hrun, fun k hk => ?_, fun k hk hlt => ?_, fun k hk => ?_⟩
  · exact (hbit k).trans (if_pos (hk.trans_le (length_le_wordCount d)))
  · exact ((hbit k).trans (if_pos hlt)).trans (bufferBit_of_length_le hk)
  · exact (hbit k).trans (if_neg (Nat.not_lt.mpr hk))

end Sys2Proof.Machine

/-! The shift registers and the bank (R86 to R99): one transition of a register, the loading steps,
INIT's loading protocol, and that a command moves the bank as its bank cycles do (R92). -/

namespace Sys2Proof.Machine

section Registers

variable {n : Nat}

/-! ### One transition of a register -/

theorem feedback_reg1 (r : BitVec 19) : feedback Config.reg1 r =
    (r.getLsbD 13 ^^ r.getLsbD 16 ^^ r.getLsbD 17 ^^ r.getLsbD 18) := by
  simp [feedback, Config.reg1]

theorem feedback_reg2 (r : BitVec 22) : feedback Config.reg2 r =
    (r.getLsbD 20 ^^ r.getLsbD 21) := by
  simp [feedback, Config.reg2]

theorem feedback_reg3 (r : BitVec 23) : feedback Config.reg3 r =
    (r.getLsbD 7 ^^ r.getLsbD 20 ^^ r.getLsbD 21 ^^ r.getLsbD 22) := by
  simp [feedback, Config.reg3]

/-- Every bit of a register after one transition (R87). -/
theorem clock_getLsbD (c : RegConfig) (r : BitVec n) (x : Bool) (j : Nat) :
    (clock c r x).getLsbD j =
      (decide (j < n) && if j = 0 then feedback c r ^^ x else r.getLsbD (j - 1)) := by
  rw [clock, BitVec.getLsbD_or, BitVec.getLsbD_shiftLeft, BitVec.getLsbD_setWidth,
    BitVec.getLsbD_ofBool]
  by_cases hj : j = 0
  · simp [hj]
  · simp [hj]

/-- One transition as a number (R87): the shift leaves bit 0 free for the inserted bit. -/
theorem clock_toNat (c : RegConfig) (r : BitVec n) (x : Bool) (hn : 0 < n) :
    (clock c r x).toNat = 2 * r.toNat % 2 ^ n + (feedback c r ^^ x).toNat := by
  obtain ⟨m, rfl⟩ := Nat.exists_eq_add_of_lt hn
  have hbit : (feedback c r ^^ x).toNat < 2 ^ 1 := Bool.toNat_lt _
  have hshift : 2 * r.toNat % 2 ^ (0 + m + 1) = 2 ^ 1 * (r.toNat % 2 ^ (0 + m)) := by
    rw [Nat.pow_succ', Nat.mul_mod_mul_left, Nat.pow_one]
  rw [clock, BitVec.toNat_or, BitVec.toNat_shiftLeft, Nat.shiftLeft_eq, Nat.pow_one, Nat.mul_comm,
    BitVec.toNat_setWidth_of_le (by omega), BitVec.toNat_ofBool, hshift,
    Nat.two_pow_add_eq_or_of_lt hbit]

/-- The feedback is linear over GF(2). -/
theorem feedback_xor (c : RegConfig) (r q : BitVec n) :
    feedback c (r ^^^ q) = (feedback c r ^^ feedback c q) := by
  unfold feedback
  induction c.taps with
  | nil => rfl
  | cons j taps ih =>
    rw [List.foldr_cons, ih, BitVec.getLsbD_xor]
    simp only [List.foldr_cons, Bool.xor_assoc, Bool.xor_left_comm]

/-- One transition is linear over GF(2), in the contents and the injected bit (R99). -/
theorem clock_xor (c : RegConfig) (r q : BitVec n) (x y : Bool) :
    clock c (r ^^^ q) (x ^^ y) = clock c r x ^^^ clock c q y := by
  apply BitVec.eq_of_getLsbD_eq
  intro j hj
  simp only [BitVec.getLsbD_xor, clock_getLsbD, feedback_xor, hj, decide_true, Bool.true_and]
  split
  · simp only [Bool.xor_assoc, Bool.xor_left_comm]
  · rfl

/-- Zero is a fixed point of the plain clock (R87), being the sum of zero with itself. -/
theorem clock_zero (c : RegConfig) : clock c (0#n) false = 0#n := by
  have h := clock_xor c (0#n) (0#n) false false
  rwa [BitVec.xor_self, BitVec.xor_self, Bool.xor_self] at h

end Registers

section Loading

/-! ### Loading -/

theorem loadAll_append (xs ys : List Bool) (b : Bank) :
    Bank.loadAll (xs ++ ys) b = Bank.loadAll ys (Bank.loadAll xs b) := List.foldl_append

/-- The sum of two banks over GF(2), register by register. -/
def Bank.xor (b c : Bank) : Bank :=
  { r1 := b.r1 ^^^ c.r1, r2 := b.r2 ^^^ c.r2, r3 := b.r3 ^^^ c.r3 }

theorem load_xor (b c : Bank) (x y : Bool) :
    (b.xor c).load (x ^^ y) = (b.load x).xor (c.load y) := by
  simp only [Bank.xor, Bank.load, clock_xor]

theorem loadAll_xor {xs ys : List Bool} (h : xs.length = ys.length) (b c : Bank) :
    Bank.loadAll (List.zipWith (fun x y => x ^^ y) xs ys) (b.xor c) =
      (Bank.loadAll xs b).xor (Bank.loadAll ys c) := by
  induction xs generalizing ys b c with
  | nil =>
    obtain rfl := List.length_eq_zero_iff.mp h.symm
    rfl
  | cons x xs ih =>
    cases ys with
    | nil => cases h
    | cons y ys =>
      have htail := ih (Nat.succ.inj h) (b.load x) (c.load y)
      rwa [← load_xor] at htail

theorem load_zero : Bank.zero.load false = Bank.zero := by
  simp only [Bank.zero, Bank.load, clock_zero]

/-- Loading zero bits keeps the zero bank. -/
theorem loadAll_replicate_false (n : Nat) :
    Bank.loadAll (List.replicate n false) Bank.zero = Bank.zero := by
  induction n with
  | zero => rfl
  | succ n ih =>
    rw [List.replicate_succ]
    exact (congrArg (Bank.loadAll _) load_zero).trans ih

theorem bitstring_zero (n : Nat) : bitstring (0#n) = List.replicate n false := by
  simp [bitstring]

/-! ### INIT -/

/-- The bits that INIT(fe) feeds: the key's, then the frame's if there is one (R94). -/
def fedBits (fe : Bool) (s : State) : List Bool :=
  keyBitsOf s ++ if fe then frameBitsOf s else []

/-- INIT's bank: the fed bits loaded from the zero bank, then the warm-up (R93, R96). -/
theorem initializeKey_eq (fe : Bool) (s : State) :
    initializeKey (keyBitsOf s) fe (frameBitsOf s) =
      Bank.mstep^[Config.warmup] (Bank.loadAll (fedBits fe s) Bank.zero) := by
  rw [initializeKey, msteps_eq_iterate, fedBits, loadAll_append]
  cases fe <;> rfl

/-- INIT's effect, field by field (R113). -/
theorem exec_init (fe : Bool) (s : State) : exec (.init fe) s = .next { s with
    bank := Bank.mstep^[Config.warmup] (Bank.loadAll (fedBits fe s) Bank.zero)
    ks := [], hist := [], initDone := true, err := 0#4 } := by
  rw [← initializeKey_eq]
  rfl

/-- A zero key, with no frame or a zero frame, feeds zero bits. -/
theorem fedBits_zero {fe : Bool} {s : State} (hkey : s.key = 0#64)
    (hframe : fe = true → s.frame = 0#22) : ∃ n, fedBits fe s = List.replicate n false := by
  rw [fedBits, keyBitsOf, hkey, bitstring_zero]
  cases fe with
  | false => exact ⟨64, List.append_nil _⟩
  | true =>
    rw [frameBitsOf, hframe rfl, bitstring_zero]
    exact ⟨64 + 22, List.replicate_append_replicate⟩

/-! ### The zero bank -/

/-- The zero bank is a fixed point of MSTEP (R108). -/
theorem iterate_mstep_zero (n : Nat) : Bank.mstep^[n] Bank.zero = Bank.zero :=
  Function.iterate_fixed (by decide) n

theorem ksBit_zero : Bank.zero.ksBit = false := by decide

theorem snap_zero : Bank.zero.snap = 0#64 := by decide

/-- From the zero bank GEN's body gives zero bits, snapshots and events, and keeps the bank. -/
theorem genBody_of_zero {s : State} (h : s.bank = Bank.zero) (n : Nat) :
    genBody n s = { s with
      ks := List.replicate n false
      hist := List.replicate n 0#64
      trace := s.trace ++ List.replicate n { before := 0#64, after := 0#64 } } := by
  simp only [genBody_eq, h, iterate_mstep_zero, ksBit_zero, snap_zero, List.map_const',
    List.length_range]

end Loading

section CommandCycles

variable {s t : State} {w : Word} {i : Instr}

/-! ### Driving the bank operations of a command -/

/-- The bank after the port words of the bank operations, first operation first. -/
def Bank.driveOps (ops : List Instr) (b : Bank) : Bank := b.driveAll (ops.filterMap portWordOf)

theorem driveAll_portSequence (s : State) (i : Instr) (b : Bank) :
    b.driveAll (portSequence s i) = b.driveOps (bankSequence s i) := rfl

theorem driveOps_append (xs ys : List Instr) (b : Bank) :
    b.driveOps (xs ++ ys) = (b.driveOps xs).driveOps ys := by
  simp [Bank.driveOps, Bank.driveAll]

theorem driveOps_loads (xs : List Bool) (b : Bank) :
    b.driveOps (xs.map .load) = Bank.loadAll xs b := by
  induction xs generalizing b with
  | nil => rfl
  | cons x xs ih =>
    have hdrive : b.drive (packPort x 0b10#2) = b.load x := by
      rw [Bank.drive, decodePort_load]
    exact (congrArg (Bank.driveOps (xs.map .load)) hdrive).trans (ih (b.load x))

theorem driveOps_msteps (n : Nat) (b : Bank) :
    b.driveOps (List.replicate n .mstep) = Bank.mstep^[n] b := by
  induction n generalizing b with
  | zero => rfl
  | succ n ih => exact ih b.mstep

/-- INIT's bank operations: CLEAR, one LOAD for each bit fed, the warm-up (R93). -/
theorem bankSequence_init (fe : Bool) (s : State) : bankSequence s (.init fe) =
    [.clear] ++ (fedBits fe s).map .load ++ List.replicate Config.warmup .mstep := by
  cases fe <;> simp [bankSequence, fedBits]

theorem driveOps_init (fe : Bool) (s : State) (b : Bank) : b.driveOps (bankSequence s (.init fe)) =
    Bank.mstep^[Config.warmup] (Bank.loadAll (fedBits fe s) Bank.zero) := by
  rw [bankSequence_init, driveOps_append, driveOps_append, driveOps_loads, driveOps_msteps]
  rfl

theorem genBody_bank (n : Nat) (s : State) : (genBody n s).bank = Bank.mstep^[n] s.bank := by
  rw [genBody_eq]

/-- ENCDEC moves the bank only if it regenerates (R118). -/
theorem encdecBody_bank (n : Nat) (s : State) :
    (encdecBody n s).bank = s.bank.driveOps (bankSequence s (.encdec n)) := by
  rw [encdecBody, State.setResult_bank, bankSequence]
  split
  · rw [genBody_bank, driveOps_msteps]
  · rfl

/-- A command whose checks pass does to the bank what its port words do. -/
theorem exec_bank_eq_driveAll (hi : isCommand i = true) (herr : commandError i s = none)
    (he : exec i s = .next t) : t.bank = s.bank.driveAll (portSequence s i) := by
  rw [driveAll_portSequence]
  cases i with
  | init fe =>
    rw [driveOps_init]
    cases (exec_init fe s).symm.trans he
    rfl
  | gen n =>
    cases he
    rw [checkedCommand_of_noError herr]
    exact (genBody_bank n s).trans (driveOps_msteps n s.bank).symm
  | encdec n =>
    cases he
    rw [checkedCommand_of_noError herr]
    exact encdecBody_bank n s
  | hold => cases hi
  | clear => cases hi
  | load din => cases hi
  | mstep => cases hi

/-! ### A run of bank cycles -/

/-- The errors that a command reports have a code other than 0 (R131). -/
theorem commandError_bits_ne_zero {e : ErrCode} (h : commandError i s = some e) :
    e.bits ≠ 0#4 := by
  have hlength {n : Nat} (h : lengthCommandError n s = some e) : e.bits ≠ 0#4 := by
    unfold lengthCommandError at h
    split at h
    · cases h; decide
    · split at h <;> cases h
      decide
  cases i with
  | gen n => exact hlength h
  | encdec n => exact hlength h
  | _ => cases h

/-- A command that ends with ERR = 0 has passed its checks. -/
theorem commandError_eq_none_of_err (he : exec i s = .next t) (herr : t.err = 0#4) :
    commandError i s = none := by
  cases h : commandError i s with
  | none => rfl
  | some e =>
    cases (exec_of_commandError h).symm.trans he
    exact absurd herr (commandError_bits_ne_zero h)

/-- As many bank cycles as words are left drive exactly those words, and change the bank and the
sequencer's progress alone (R92). -/
theorem runFor_bankCycles {b : Bank} (ws : List PortWord) (ha : activeCommand s = some i)
    (hl : cyclesOf i s = { start := b, left := ws }) :
    ∃ c, runFor ws.length (s.setSched (List.replicate ws.length .bankCycle)) =
      .next { s with sched := [], bank := s.bank.driveAll ws, cycles := c } := by
  induction ws generalizing s with
  | nil => exact ⟨s.cycles, rfl⟩
  | cons p ps ih =>
    have hstep := step_bankCycle_drives
      (s := s.setSched (.bankCycle :: List.replicate ps.length .bankCycle)) rfl ha hl
    obtain ⟨c, hrun⟩ :=
      ih (s := (s.setCycles (some { start := b, left := ps })).setBank (s.bank.drive p)) ha rfl
    exact ⟨c, (runFor_succ (hstep.trans (exec_decodePort p _))).trans hrun⟩

end CommandCycles

/-! ### The obligations -/

/-- Settles O16: the bits by `clock_getLsbD`, the number by `clock_toNat`. -/
theorem clockShiftsTowardOutputEnd : Obligations.ClockShiftsTowardOutputEnd := by
  refine ⟨by decide, by decide, fun n c r x hn =>
    ⟨?_, fun j hpos hlt => ?_, clock_toNat c r x hn, clock_zero c⟩⟩
  · rw [clock_getLsbD, decide_eq_true hn, if_pos rfl, Bool.true_and]
  · rw [clock_getLsbD, decide_eq_true hlt, if_neg hpos.ne', Bool.true_and]

/-- Settles O24: step by step, each register's transition being linear. -/
theorem loadingIsLinear : Obligations.LoadingIsLinear :=
  fun _ _ b c h => loadAll_xor h b c

/-- Settles O25: zero bits loaded keep the zero bank, and so does MSTEP. -/
theorem zeroKeyGivesZeroKeystream : Obligations.ZeroKeyGivesZeroKeystream := by
  refine ⟨fun s fe hkey hframe => ?_, fun s n hbank hinit hn => ?_⟩
  · obtain ⟨n, hbits⟩ := fedBits_zero hkey hframe
    rw [exec_init, hbits, loadAll_replicate_false, iterate_mstep_zero]
    rfl
  · have hrun : checkedCommand n (genBody n) s = (genBody n s).setErr 0#4 :=
      checkedCommand_runs hinit hn
    rw [genBody_of_zero hbank] at hrun
    exact congrArg Host.Outcome.next hrun

/-- Settles O44: both sides drive the command's port words on the bank. -/
theorem commandEqualsItsBankCycles : Obligations.CommandEqualsItsBankCycles := by
  intro s t w i hb hp hc hd he herr
  have hchecks := commandError_eq_none_of_err he herr
  have hactive := activeCommand_eq_some.mpr ⟨hb, w, hp, hd, hchecks⟩
  rw [exec_bank_eq_driveAll (decodeCmd_isCommand hd) hchecks he]
  exact runFor_bankCycles (portSequence s i) hactive (cyclesOf_none hc)

/-- Settles O15: the taps of the table of R5. -/
theorem feedbackIsTapParity : Obligations.FeedbackIsTapParity :=
  ⟨feedback_reg1, feedback_reg2, feedback_reg3⟩

/-- Settles O17: the probes by definition, the characters by `bitstring_getD`. -/
theorem probesReadTheirPositions : Obligations.ProbesReadTheirPositions :=
  ⟨by decide, by decide, fun b => ⟨rfl, rfl, rfl, rfl, rfl, rfl,
    bitstring_length b.r1, bitstring_length b.r2, bitstring_length b.r3,
    bitstring_getD b.r1, bitstring_getD b.r2, bitstring_getD b.r3⟩⟩

/-- Settles O19: DIN is not among the bits the decoder looks at for CLEAR and HOLD. -/
theorem clearZeroesAndHoldKeeps : Obligations.ClearZeroesAndHoldKeeps := by
  refine ⟨fun din => ?_, fun s => ⟨rfl, rfl⟩⟩
  cases din <;> decide

/-- Settles O20: one transition of each register, with its tap parity written out. -/
theorem loadClocksAllRegisters : Obligations.LoadClocksAllRegisters := by
  refine fun s b => ⟨decodePort_load b, ?_⟩
  rw [← feedback_reg1, ← feedback_reg2, ← feedback_reg3]
  rfl

/-- Settles O26: INIT's effect, the fed bits in the order of R94. -/
theorem initLoadsKeyAndFrame : Obligations.InitLoadsKeyAndFrame :=
  ⟨decodeCmd_init false, decodeCmd_init true, fun s fe => exec_init fe s⟩

end Sys2Proof.Machine

/-! The majority clock (R102 to R108): the controller's ports, MSTEP register by register and its
fixed points, and that every turn keeps the history and the keystream belonging together. -/

namespace Sys2Proof.Machine

section Controller

/-! ### The controller -/

/-- Register i is enabled exactly when its control bit is the majority (R104). -/
theorem enables_getLsbD (c : BitVec 3) {i : Nat} (h : i < 3) :
    (enables c).getLsbD i = (c.getLsbD i == majority c) := by
  have hbits : ∀ x y : Bool, (!(x ^^ y)) = (x == y) := by decide
  rw [enables, bitsOf_getLsbD, decide_eq_true h, Bool.true_and, hbits]

/-- The port CB carries the control bits of R1, R2 and R3, in this order (R92). -/
theorem cb_getLsbD (b : Bank) : b.cb.getLsbD 0 = b.r1.getLsbD 8 ∧
    b.cb.getLsbD 1 = b.r2.getLsbD 10 ∧ b.cb.getLsbD 2 = b.r3.getLsbD 10 := by
  simp only [Bank.cb, BitVec.getLsbD_append, BitVec.getLsbD_ofBool]
  exact ⟨rfl, rfl, rfl⟩

theorem majority_cb (b : Bank) : majority b.cb =
    ((b.r1.getLsbD 8 && b.r2.getLsbD 10) || (b.r1.getLsbD 8 && b.r3.getLsbD 10) ||
      (b.r2.getLsbD 10 && b.r3.getLsbD 10)) := by
  obtain ⟨h1, h2, h3⟩ := cb_getLsbD b
  rw [majority, h1, h2, h3]

/-! ### MSTEP, register by register (R105) -/

theorem mstep_r1 (b : Bank) : b.mstep.r1 =
    if b.r1.getLsbD 8 = majority b.cb then clock Config.reg1 b.r1 false else b.r1 := by
  simp only [Bank.mstep, enables_getLsbD b.cb (i := 0) (by decide), beq_iff_eq, cb_getLsbD]

theorem mstep_r2 (b : Bank) : b.mstep.r2 =
    if b.r2.getLsbD 10 = majority b.cb then clock Config.reg2 b.r2 false else b.r2 := by
  simp only [Bank.mstep, enables_getLsbD b.cb (i := 1) (by decide), beq_iff_eq, cb_getLsbD]

theorem mstep_r3 (b : Bank) : b.mstep.r3 =
    if b.r3.getLsbD 10 = majority b.cb then clock Config.reg3 b.r3 false else b.r3 := by
  simp only [Bank.mstep, enables_getLsbD b.cb (i := 2) (by decide), beq_iff_eq, cb_getLsbD]

end Controller

section FixedPoints

variable {n : Nat} {b : Bank}

/-! ### The fixed points of MSTEP -/

/-- In a register that a transition keeps, every bit is the inserted one. -/
theorem getLsbD_of_clock_eq_self {c : RegConfig} {r : BitVec n} (h : clock c r false = r) {j : Nat}
    (hj : j < n) : r.getLsbD j = feedback c r := by
  have hbit {k : Nat} (hk : k < n) :
      r.getLsbD k = if k = 0 then feedback c r else r.getLsbD (k - 1) := by
    conv_lhs => rw [← h, clock_getLsbD, decide_eq_true hk, Bool.true_and, Bool.xor_false]
  induction j with
  | zero => exact hbit hj
  | succ j ih => exact (hbit hj).trans (ih (Nat.lt_of_succ_lt hj))

/-- With an even number of taps, so that the all-ones contents feed back 0, only zero is kept by a
transition. -/
theorem clock_eq_self_iff {c : RegConfig} (hones : feedback c (BitVec.allOnes n) = false)
    {r : BitVec n} : clock c r false = r ↔ r = 0#n := by
  refine ⟨fun h => ?_, fun h => h ▸ clock_zero c⟩
  cases hfb : feedback c r with
  | false =>
    apply BitVec.eq_of_getLsbD_eq
    intro j hj
    rw [getLsbD_of_clock_eq_self h hj, hfb, BitVec.getLsbD_zero]
  | true =>
    have hr : r = BitVec.allOnes n := by
      apply BitVec.eq_of_getLsbD_eq
      intro j hj
      rw [getLsbD_of_clock_eq_self h hj, hfb, BitVec.getLsbD_allOnes, decide_eq_true hj]
    rw [hr, hones] at hfb
    cases hfb

theorem bank_eq_iff {c : Bank} : b = c ↔ b.r1 = c.r1 ∧ b.r2 = c.r2 ∧ b.r3 = c.r3 := by
  cases b; cases c; simp

/-- MSTEP keeps the bank exactly when the registers it clocks are zero. -/
theorem mstep_eq_self_iff : b.mstep = b ↔
    (b.r1.getLsbD 8 = majority b.cb → b.r1 = 0#19) ∧
    (b.r2.getLsbD 10 = majority b.cb → b.r2 = 0#22) ∧
    (b.r3.getLsbD 10 = majority b.cb → b.r3 = 0#23) := by
  rw [bank_eq_iff, mstep_r1, mstep_r2, mstep_r3, ite_eq_right_iff, ite_eq_right_iff,
    ite_eq_right_iff, clock_eq_self_iff (by decide), clock_eq_self_iff (by decide),
    clock_eq_self_iff (by decide)]

theorem getLsbD_eq_false_of_imp_zero {r : BitVec n} {j : Nat}
    (h : r.getLsbD j = true → r = 0#n) : r.getLsbD j = false := by
  cases hr : r.getLsbD j with
  | false => rfl
  | true => rw [h hr, BitVec.getLsbD_zero] at hr; cases hr

/-- The majority at a fixed point is 0: with majority 1 a register whose control bit is 1 would be
clocked, hence zero. -/
theorem majority_eq_false_of_mstep_eq_self (h : b.mstep = b) : majority b.cb = false := by
  obtain ⟨h1, h2, h3⟩ := mstep_eq_self_iff.mp h
  cases hm : majority b.cb with
  | false => rfl
  | true =>
    rw [hm] at h1 h2 h3
    rw [← hm, majority_cb, getLsbD_eq_false_of_imp_zero h1, getLsbD_eq_false_of_imp_zero h2,
      getLsbD_eq_false_of_imp_zero h3]
    rfl

/-- R108's list. At majority 0 at most one control bit is 1, and the other registers are clocked. -/
theorem mstep_eq_self_iff_cases : b.mstep = b ↔
    (b.r1 = 0#19 ∧ b.r2 = 0#22 ∧ b.r3 = 0#23) ∨
    (b.r1 = 0#19 ∧ b.r2 = 0#22 ∧ b.r3.getLsbD 10 = true) ∨
    (b.r1 = 0#19 ∧ b.r3 = 0#23 ∧ b.r2.getLsbD 10 = true) ∨
    (b.r2 = 0#22 ∧ b.r3 = 0#23 ∧ b.r1.getLsbD 8 = true) := by
  constructor
  · intro h
    obtain ⟨h1, h2, h3⟩ := mstep_eq_self_iff.mp h
    have hm := majority_eq_false_of_mstep_eq_self h
    rw [hm] at h1 h2 h3
    rw [majority_cb] at hm
    cases hc1 : b.r1.getLsbD 8 with
    | true =>
      simp only [hc1, Bool.true_and, Bool.or_eq_false_iff] at hm
      obtain ⟨⟨hc2, hc3⟩, -⟩ := hm
      exact .inr (.inr (.inr ⟨h2 hc2, h3 hc3, rfl⟩))
    | false =>
      simp only [hc1, Bool.false_and, Bool.false_or] at hm
      cases hc2 : b.r2.getLsbD 10 with
      | true =>
        rw [hc2, Bool.true_and] at hm
        exact .inr (.inr (.inl ⟨h1 hc1, h3 hm, rfl⟩))
      | false =>
        cases hc3 : b.r3.getLsbD 10 with
        | true => exact .inr (.inl ⟨h1 hc1, h2 hc2, rfl⟩)
        | false => exact .inl ⟨h1 hc1, h2 hc2, h3 hc3⟩
  · rw [mstep_eq_self_iff, majority_cb]
    rintro (⟨h1, h2, h3⟩ | ⟨h1, h2, hc⟩ | ⟨h1, h3, hc⟩ | ⟨h2, h3, hc⟩)
    · simp [h1, h2, h3]
    · simp [h1, h2, hc]
    · simp [h1, h3, hc]
    · simp [h2, h3, hc]

theorem two_zero_of_mstep_eq_self (h : b.mstep = b) : (b.r1 = 0#19 ∧ b.r2 = 0#22) ∨
    (b.r1 = 0#19 ∧ b.r3 = 0#23) ∨ (b.r2 = 0#22 ∧ b.r3 = 0#23) := by
  obtain ⟨h1, h2, -⟩ | ⟨h1, h2, -⟩ | ⟨h1, h3, -⟩ | ⟨h2, h3, -⟩ := mstep_eq_self_iff_cases.mp h
  · exact .inl ⟨h1, h2⟩
  · exact .inl ⟨h1, h2⟩
  · exact .inr (.inl ⟨h1, h3⟩)
  · exact .inr (.inr ⟨h2, h3⟩)

theorem ksBit_eq (b : Bank) :
    b.ksBit = (b.r1.getLsbD 18 ^^ b.r2.getLsbD 21 ^^ b.r3.getLsbD 22) := rfl

/-- The output bit of a fixed point is the output end of the one register that may be nonzero. -/
theorem ksBit_of_mstep_eq_self (h : b.mstep = b) : b.ksBit =
    if b.r1 = 0#19 ∧ b.r2 = 0#22 then b.r3.getLsbD 22
    else if b.r1 = 0#19 ∧ b.r3 = 0#23 then b.r2.getLsbD 21
    else b.r1.getLsbD 18 := by
  rw [ksBit_eq]
  split
  next h12 => simp [h12]
  next h12 =>
    split
    next h13 => simp [h13]
    next h13 =>
      obtain ⟨h2, h3⟩ := ((two_zero_of_mstep_eq_self h).resolve_left h12).resolve_left h13
      simp [h2, h3]

theorem exec_mstep_eq_self_iff (s : State) : exec .mstep s = .next s ↔ s.bank.mstep = s.bank := by
  constructor
  · intro h
    exact congrArg State.bank (Host.Outcome.next.inj h)
  · intro h
    exact congrArg (fun b => Host.Outcome.next (s.setBank b)) h

end FixedPoints

section History

variable {s t : State} {i : Instr}

/-! ### History and keystream -/

/-- Consistency speaks of the two buffers alone. -/
theorem HistoryConsistent.of_buffers_eq (h : HistoryConsistent s) (hks : t.ks = s.ks)
    (hhist : t.hist = s.hist) : HistoryConsistent t := by
  obtain ⟨hlen, hout, hnext⟩ := h
  constructor <;> simpa only [State.ksLen, hks, hhist]

/-- GEN's body restarts both buffers and fills them from one and the same run of majority steps. -/
theorem historyConsistent_genBody (n : Nat) (s : State) : HistoryConsistent (genBody n s) := by
  rw [genBody_eq]
  constructor
  · simp [State.ksLen]
  · intro k hk
    have hk' : k < n := by simpa [State.ksLen] using hk
    simp [bufferBit, List.getD, hk', Function.iterate_succ_apply']
  · intro k hk
    have hk' : k + 1 < n := by simpa [State.ksLen] using hk
    simp [List.getD, hk', Nat.lt_of_succ_lt hk', Function.iterate_succ_apply']

theorem historyConsistent_encdecBody (h : HistoryConsistent s) (n : Nat) :
    HistoryConsistent (encdecBody n s) := by
  obtain ⟨r, hres | hres⟩ := encdecBody_cases n s
  · exact hres ▸ h.of_buffers_eq rfl rfl
  · exact hres ▸ (historyConsistent_genBody n s).of_buffers_eq rfl rfl

theorem historyConsistent_checkedCommand (h : HistoryConsistent s) {n : Nat}
    {body : State → State} (hbody : HistoryConsistent (body s)) :
    HistoryConsistent (checkedCommand n body s) :=
  checkedCommand_of_setErr (fun _ => h.of_buffers_eq rfl rfl) (fun _ => hbody.of_buffers_eq rfl rfl)

/-- INIT empties the buffers, GEN and ENCDEC fill them by GEN's body, the bank operations keep
them. -/
theorem historyConsistent_exec (h : HistoryConsistent s) (he : exec i s = .next t) :
    HistoryConsistent t := by
  cases i with
  | init fe => cases he; exact historyConsistent_of_empty rfl rfl
  | gen n => cases he; exact historyConsistent_checkedCommand h (historyConsistent_genBody n s)
  | encdec n => cases he; exact historyConsistent_checkedCommand h (historyConsistent_encdecBody h n)
  | _ => cases he; exact h.of_buffers_eq rfl rfl

theorem historyConsistent_engineTurn (h : HistoryConsistent s) (he : engineTurn s = .next t) :
    HistoryConsistent t := by
  have hstart : HistoryConsistent (commandStart s) := h.of_buffers_eq rfl rfl
  obtain ⟨-, rfl⟩ | ⟨-, -, -, ⟨i, u, -, hu, rfl⟩ | ⟨-, -, rfl⟩⟩ := engineTurn_next he
  · exact h
  · exact (historyConsistent_exec hstart hu).of_buffers_eq rfl rfl
  · exact hstart.of_buffers_eq rfl rfl

/-- The Host and the sequencer write neither buffer, and a reset empties both. -/
theorem historyConsistent_takeTurn (h : HistoryConsistent s) {turn : Turn}
    (ht : takeTurn turn s = .next t) : HistoryConsistent t := by
  cases turn with
  | host =>
    have hframe := hostTurn_hostWritesOnly ht
    exact h.of_buffers_eq (congrArg State.ks hframe :) (congrArg State.hist hframe :)
  | engine => exact historyConsistent_engineTurn h ht
  | reset emitted => cases ht; exact historyConsistent_of_empty rfl rfl
  | bankCycle =>
    have hframe := bankCycleTurn_frame ht
    exact h.of_buffers_eq (congrArg State.ks hframe :) (congrArg State.hist hframe :)

end History

/-! ### The obligations -/

/-- Settles O4: a step is one turn of one agent, and each of the four turns keeps the history and
the keystream belonging together. -/
theorem everyStepKeepsHistoryConsistent : Obligations.EveryStepKeepsHistoryConsistent := by
  intro s t h hstep
  rw [step_eq_takeTurn] at hstep
  have hs : HistoryConsistent (s.setSched s.sched.tail) := h.of_buffers_eq rfl rfl
  exact historyConsistent_takeTurn hs hstep

/-- Settles O23: the fixed points by R108's list, and a fixed bank stays as it is for all later
steps. -/
theorem fixedPointsOfMajorityStep : Obligations.FixedPointsOfMajorityStep := by
  refine fun s => ⟨(exec_mstep_eq_self_iff s).trans mstep_eq_self_iff_cases, fun hexec n => ?_⟩
  have h := (exec_mstep_eq_self_iff s).mp hexec
  rw [msteps_eq_iterate, Function.iterate_fixed h, h, ksBit_of_mstep_eq_self h]

/-- Settles O21: the three registers by the control bits and their majority before the step. -/
theorem majorityStepResult : Obligations.MajorityStepResult := by
  refine ⟨fun din => by cases din <;> decide, ?_⟩
  rintro s c1 c2 c3 m rfl rfl rfl rfl
  rw [← majority_cb]
  exact ⟨s.bank.mstep, rfl, mstep_r1 _, mstep_r2 _, mstep_r3 _, rfl⟩

/-- Settles O22: the enables by `enables_getLsbD`, the counts over the eight control words. -/
theorem twoOrThreeRegistersAdvance : Obligations.TwoOrThreeRegistersAdvance := by
  have hcounts : ∀ c : BitVec 3,
      (majority c = true ↔ 2 ≤ ((List.range 3).filter (fun i => c.getLsbD i)).length) ∧
      (advancing c = 2 ∨ advancing c = 3) ∧
      (advancing c = 3 ↔ c.getLsbD 0 = c.getLsbD 1 ∧ c.getLsbD 1 = c.getLsbD 2) := by decide
  intro c
  obtain ⟨hmajority, hrange, hall⟩ := hcounts c
  exact ⟨hmajority, fun _ => enables_getLsbD c, hrange, hall⟩

end Sys2Proof.Machine

/-! The keystream generator (R112 to R124): what GEN and ENCDEC answer, that an initialised block
gives no USAGE, the Engine's step, and that it does not depend on how many bank cycles were driven
before it. -/

namespace Sys2Proof.Machine

section LengthCommands

variable {s t : State} {n : Nat}

/-! ### The checks of GEN and ENCDEC -/

theorem lengthCommandError_usage (h : s.initDone = false) (n : Nat) :
    lengthCommandError n s = some .usage := by rw [lengthCommandError, if_pos h]

theorem lengthCommandError_length (hi : s.initDone = true) (hn : s.ksCap < n) :
    lengthCommandError n s = some .length := by
  rw [lengthCommandError, if_neg (by simp [hi]), if_pos hn]

theorem exec_gen_runs (hi : s.initDone = true) (hn : n ≤ s.ksCap) :
    exec (.gen n) s = .next ((genBody n s).setErr 0#4) :=
  congrArg Host.Outcome.next (checkedCommand_runs hi hn)

theorem eq_of_exec_gen (he : exec (.gen n) s = .next t) (hi : s.initDone = true)
    (hn : n ≤ s.ksCap) : t = (genBody n s).setErr 0#4 :=
  Host.Outcome.next.inj (he.symm.trans (exec_gen_runs hi hn))

theorem exec_encdec_runs (hi : s.initDone = true) (hn : n ≤ s.ksCap) :
    exec (.encdec n) s = .next ((encdecBody n s).setErr 0#4) :=
  congrArg Host.Outcome.next (checkedCommand_runs hi hn)

/-! ### GEN -/

theorem genBody_ks_length (n : Nat) (s : State) : (genBody n s).ks.length = n := by
  simp [genBody_eq]

theorem genBody_setErr (n : Nat) (e : BitVec 4) (s : State) :
    genBody n (s.setErr e) = (genBody n s).setErr e := by
  rw [genBody_eq, genBody_eq]
  rfl

/-- What n steps write down, one entry a step, is what the first m of m + n write down and then what
n steps from the bank after those m do. -/
theorem map_iterate_add {α : Type} (f : Bank → α) (b : Bank) (m n : Nat) :
    (List.range (m + n)).map (fun j => f (Bank.mstep^[j] b)) =
      (List.range m).map (fun j => f (Bank.mstep^[j] b)) ++
        (List.range n).map (fun j => f (Bank.mstep^[j] (Bank.mstep^[m] b))) := by
  simp only [List.range_add, List.map_append, List.map_map, Function.comp_def,
    ← Function.iterate_add_apply, Nat.add_comm]

/-- GEN(m + n) runs one trajectory, of which GEN(m) and then GEN(n) run the two stretches (R115). -/
theorem genBody_add (m n : Nat) (s : State) : genBody (m + n) s = { genBody n (genBody m s) with
    ks := (genBody m s).ks ++ (genBody n (genBody m s)).ks
    hist := (genBody m s).hist ++ (genBody n (genBody m s)).hist } := by
  have hbank : Bank.mstep^[m + n] s.bank = Bank.mstep^[n] (Bank.mstep^[m] s.bank) := by
    rw [Nat.add_comm, Function.iterate_add_apply]
  have hks := map_iterate_add (fun b => b.mstep.ksBit) s.bank m n
  have hhist := map_iterate_add Bank.snap s.bank m n
  have htrace := map_iterate_add (fun b => TraceEvent.mk b.snap b.mstep.snap) s.bank m n
  simp only [genBody_eq, Function.iterate_succ_apply', hbank, hks, hhist, htrace,
    List.append_assoc]

/-- The buffers and the bank after GEN's body depend on the bank before it alone. -/
theorem genBody_of_bank_eq (h : s.bank = t.bank) (n : Nat) :
    (genBody n s).ks = (genBody n t).ks ∧ (genBody n s).hist = (genBody n t).hist ∧
      (genBody n s).bank = (genBody n t).bank := by
  simp [genBody_eq, h]

/-! ### INIT -/

/-- The bits that INIT feeds depend on KEY and, with a frame, on FRAME alone (R117). -/
theorem fedBits_congr {fe : Bool} (hkey : s.key = t.key) (hframe : fe = true → s.frame = t.frame) :
    fedBits fe s = fedBits fe t := by
  rw [fedBits, fedBits, keyBitsOf, keyBitsOf, hkey]
  cases fe with
  | false => rfl
  | true => rw [frameBitsOf, frameBitsOf, hframe rfl]

/-- Two INITs that feed the same bits leave the same bank. -/
theorem exec_init_bank_eq {s' t' : State} {fe : Bool} (hkey : s.key = t.key)
    (hframe : fe = true → s.frame = t.frame) (hs : exec (.init fe) s = .next s')
    (ht : exec (.init fe) t = .next t') : s'.bank = t'.bank := by
  cases (exec_init fe s).symm.trans hs
  cases (exec_init fe t).symm.trans ht
  exact congrArg (fun bits => Bank.mstep^[Config.warmup] (Bank.loadAll bits Bank.zero))
    (fedBits_congr hkey hframe)

/-! ### ENCDEC -/

/-- With n within the buffer, ENCDEC's body reuses it (R118). -/
theorem encdecBody_of_le (h : n ≤ s.ksLen) :
    encdecBody n s = s.setResult (maskedResult n s.ksCap s.data s.ks) := by
  rw [encdecBody, if_neg (Nat.not_lt.mpr h)]

/-- With n beyond the buffer, ENCDEC's body regenerates it by GEN's (R118). -/
theorem encdecBody_of_lt (h : s.ksLen < n) : encdecBody n s =
    (genBody n s).setResult (maskedResult n s.ksCap s.data (genBody n s).ks) := by
  rw [encdecBody, if_pos h, genBody_eq]
  rfl

/-- Whichever way ENCDEC's body takes, the buffer then has the bits asked for, and RESULT is DATA
under the mask of this buffer (R119). -/
theorem encdecBody_masks (n : Nat) (s : State) : n ≤ (encdecBody n s).ksLen ∧
    (encdecBody n s).result = maskedResult n s.ksCap s.data (encdecBody n s).ks := by
  by_cases h : s.ksLen < n
  · rw [encdecBody_of_lt h]
    exact ⟨(genBody_ks_length n s).ge, rfl⟩
  · rw [encdecBody_of_le (Nat.not_lt.mp h)]
    exact ⟨Nat.not_lt.mp h, rfl⟩

theorem exec_encdec_reuses (hi : s.initDone = true) (hn : n ≤ s.ksCap) (hlen : n ≤ s.ksLen) :
    exec (.encdec n) s =
      .next ((s.setResult (maskedResult n s.ksCap s.data s.ks)).setErr 0#4) := by
  rw [exec_encdec_runs hi hn, encdecBody_of_le hlen]

/-- After an ENCDEC(n) that runs, another one may run, and then reuses the buffer (R120). -/
theorem exec_encdec_masks (he : exec (.encdec n) s = .next t) (hi : s.initDone = true)
    (hn : n ≤ s.ksCap) : t.initDone = true ∧ t.ksCap = s.ksCap ∧ n ≤ t.ksLen ∧
      t.result = maskedResult n s.ksCap s.data t.ks := by
  have hcap : (encdecBody n s).ksCap = s.ksCap :=
    congrArg BitVec.toNat (encdecBody_commandWritesOnly n s).cap_eq
  cases (exec_encdec_runs hi hn).symm.trans he
  exact ⟨(encdecBody_initDone n s).trans hi, hcap, encdecBody_masks n s⟩

/-- Masking twice under one mask gives the data back, as far as the mask goes. -/
theorem maskedResult_maskedResult {cap k : Nat} (data ks : List Bool) (hk : k < n) (hn : n ≤ cap) :
    bufferBit (maskedResult n cap (maskedResult n cap data ks) ks) k = bufferBit data k := by
  have hcap : k < cap := hk.trans_le hn
  simp [maskedResult_bufferBit, hk, hcap]

end LengthCommands

section Usage

variable {s t : State} {i : Instr}

/-! ### No USAGE once initialised (R129) -/

/-- Once initialised, a checked command ends with LENGTH or with success. -/
theorem checkedCommand_err_ne_usage (hi : s.initDone = true) (n : Nat) (body : State → State) :
    (checkedCommand n body s).err ≠ 2#4 := by
  obtain ⟨h, -⟩ | ⟨-, -, h⟩ | ⟨-, -, h⟩ := checkedCommand_cases n body s
  · simp [hi] at h
  · simp [h]
  · simp [h]

theorem exec_err_ne_usage (hi : s.initDone = true) (herr : s.err ≠ 2#4)
    (he : exec i s = .next t) : t.err ≠ 2#4 := by
  cases i with
  | init fe => cases he; exact (by decide : (0#4 : BitVec 4) ≠ 2#4)
  | gen n => cases he; exact checkedCommand_err_ne_usage hi n _
  | encdec n => cases he; exact checkedCommand_err_ne_usage hi n _
  | _ => cases he; exact herr

theorem engineTurn_err_ne_usage (hi : s.initDone = true) (herr : s.err ≠ 2#4)
    (he : engineTurn s = .next t) : t.err ≠ 2#4 := by
  obtain ⟨-, rfl⟩ | ⟨-, -, -, ⟨i, u, -, hu, rfl⟩ | ⟨-, -, rfl⟩⟩ := engineTurn_next he
  · exact herr
  · exact (exec_err_ne_usage (s := commandStart s) hi herr hu :)
  · exact (by decide : (1#4 : BitVec 4) ≠ 2#4)

/-- The Host and the sequencer keep ERR, and a reset clears it. -/
theorem takeTurn_err_ne_usage {turn : Turn} (hi : s.initDone = true) (herr : s.err ≠ 2#4)
    (h : takeTurn turn s = .next t) : t.err ≠ 2#4 := by
  cases turn with
  | host => rwa [(congrArg State.err (hostTurn_hostWritesOnly h) :)]
  | engine => exact engineTurn_err_ne_usage hi herr h
  | reset emitted => cases h; exact (by decide : (0#4 : BitVec 4) ≠ 2#4)
  | bankCycle => rwa [(congrArg State.err (bankCycleTurn_frame h) :)]

end Usage

section EngineSteps

variable {s t : State} {w : Word} {rest : List Turn}

/-! ### The Engine's step -/

theorem step_engineTurn (h : currentTurn s = .engine) :
    step s = engineTurn (s.setSched s.sched.tail) := by
  rw [step_eq_takeTurn, h]
  rfl

/-- The step of a busy block on the Engine's scheduled turn, or with an empty schedule, performs the
pending word from where the command began. -/
theorem step_performCommand (hb : s.busy = true) (hp : s.pend = some w)
    (hs : s.sched = .engine :: rest ∨ (s.sched = [] ∧ rest = [])) :
    step s = performCommand w (commandStart (s.setSched rest)) := by
  have hturn : currentTurn s = .engine ∧ s.sched.tail = rest := by
    obtain h | ⟨h, rfl⟩ := hs
    · rw [currentTurn, h]
      exact ⟨rfl, rfl⟩
    · rw [currentTurn, h]
      exact ⟨defaultTurn_busy hb, rfl⟩
  obtain ⟨hengine, htail⟩ := hturn
  rw [step_engineTurn hengine, htail, engineTurn_busy (s := s.setSched rest) hb hp]

/-- An ILLEGAL word in flight is no command the sequencer works on (R15, R133). -/
theorem activeCommand_of_illegal {e : DecodeError} (hp : s.pend = some w)
    (hd : decodeCmd w = .error e) : activeCommand s = none := by
  rw [Option.eq_none_iff_forall_ne_some]
  intro i ha
  obtain ⟨-, v, hv, hi, -⟩ := activeCommand_eq_some.mp ha
  cases hp.symm.trans hv
  cases hd.symm.trans hi

/-- With no command worked on, the Engine's step starts from the present bank. -/
theorem commandStart_of_inactive (h : activeCommand s = none) :
    commandStart s = s.setCycles none :=
  congrArg (fun b => (s.setBank b).setCycles none) (commandStart_bank_of_inactive h)

/-! ### Bank cycles before the Engine's turn -/

theorem bankCycleTurn_next (s : State) : ∃ t, bankCycleTurn s = .next t := by
  obtain h | ⟨i, port, rest, -, -, h⟩ := bankCycleTurn_cases s
  · exact ⟨_, h⟩
  · exact ⟨_, h⟩

/-- A bank cycle changes nothing that the Engine's turn depends on (R19). -/
theorem engineTurn_of_bankCycleTurn (h : bankCycleTurn s = .next t) (l : List Turn) :
    engineTurn (t.setSched l) = engineTurn (s.setSched l) := by
  cases hb : s.busy with
  | false =>
    have hpass : bankCycleTurn s = .next s := takeTurn_idle (turn := .bankCycle) hb rfl nofun
    cases hpass.symm.trans h
    rfl
  | true =>
    have hkeeps := bankCycleTurn_keepsCommand h
    have hstart : commandStart t = commandStart s := by
      rw [hkeeps, bankCycleTurn_frame h]
      rfl
    have hstart' : commandStart (t.setSched l) = commandStart (s.setSched l) :=
      congrArg (State.setSched l) hstart
    simp only [engineTurn, State.setSched_busy, State.setSched_pend, hkeeps.busy_eq,
      hkeeps.pend_eq, hstart', hb, if_true]

/-- The Engine's step after any number of scheduled bank cycles. -/
theorem step_engine_after_bankCycles (k : Nat)
    (hs : s.sched = List.replicate k .bankCycle ++ .engine :: rest) :
    ∃ u, runFor k s = .next u ∧ step u = engineTurn (s.setSched rest) := by
  induction k generalizing s with
  | zero =>
    have hturn : currentTurn s = .engine := by rw [currentTurn, hs]; rfl
    exact ⟨s, rfl, by rw [step_engineTurn hturn, hs]; rfl⟩
  | succ k ih =>
    rw [List.replicate_succ, List.cons_append] at hs
    obtain ⟨t, ht⟩ :=
      bankCycleTurn_next (s.setSched (List.replicate k .bankCycle ++ .engine :: rest))
    obtain ⟨u, hrun, hu⟩ := ih (congrArg State.sched (bankCycleTurn_frame ht) :)
    exact ⟨u, (runFor_succ ((step_bankCycle hs).trans ht)).trans hrun,
      hu.trans (engineTurn_of_bankCycleTurn ht rest)⟩

end EngineSteps

/-! ### The obligations -/

/-- Settles O27: the same bits are fed, so GEN's body starts from the same bank. -/
theorem equalKeysGiveEqualKeystreams : Obligations.EqualKeysGiveEqualKeystreams := by
  intro s t s1 s2 t1 t2 fe n hkey hframe hns hnt hs1 hs2 ht1 ht2
  have hinit := exec_init_bank_eq hkey hframe hs1 ht1
  cases hs1
  cases ht1
  obtain rfl := eq_of_exec_gen hs2 rfl hns
  obtain rfl := eq_of_exec_gen ht2 rfl hnt
  obtain ⟨hks, hhist, hbank⟩ := genBody_of_bank_eq hinit n
  exact ⟨hks, genBody_ks_length n _, hhist, hbank⟩

/-- Settles O28: the two checks, and GEN's body in closed form. -/
theorem genGeneratesKeystream : Obligations.GenGeneratesKeystream := by
  intro s n
  refine ⟨fun hi => exec_of_commandError (i := .gen n) (lengthCommandError_usage hi n),
    fun hi hn => exec_of_commandError (i := .gen n) (lengthCommandError_length hi hn),
    fun hi hn => ?_⟩
  rw [exec_gen_runs hi hn, genBody_eq]
  rfl

/-- Settles O29: GEN(m + n) is the two stretches, one after the other. -/
theorem genRestartsBufferContinuesRegisters : Obligations.GenRestartsBufferContinuesRegisters := by
  intro s t u v m n hi hmn ht hu hv
  have hm : m ≤ s.ksCap := le_trans (Nat.le_add_right m n) hmn
  have hn : n ≤ (genBody m s).ksCap := by
    rw [genBody_ksCap]
    exact le_trans (Nat.le_add_left n m) hmn
  obtain rfl := eq_of_exec_gen ht hi hm
  obtain rfl := eq_of_exec_gen hu ((genBody_initDone m s).trans hi) hn
  obtain rfl := eq_of_exec_gen hv hi hmn
  rw [genBody_add, genBody_setErr]
  exact ⟨rfl, rfl, rfl, rfl, genBody_ks_length m s, genBody_ks_length n _⟩

/-- Settles O31: the two checks, and ENCDEC's body by reuse and by regeneration. -/
theorem encdecMasksData : Obligations.EncdecMasksData := by
  intro s n
  refine ⟨fun hi => exec_of_commandError (i := .encdec n) (lengthCommandError_usage hi n),
    fun hi hn => exec_of_commandError (i := .encdec n) (lengthCommandError_length hi hn),
    fun hi hn hlen => ?_, fun hi hn hlen => ?_⟩
  · exact exec_encdec_reuses hi hn hlen
  · refine ⟨_, exec_gen_runs hi hn, genBody_ks_length n s, ?_⟩
    rw [exec_encdec_runs hi hn, encdecBody_of_lt hlen]
    rfl

/-- Settles O32: the first ENCDEC leaves a buffer long enough, so the second one reuses it. -/
theorem encdecTwiceRecoversData : Obligations.EncdecTwiceRecoversData := by
  intro s t u n hi hn ht hu
  obtain ⟨hi', hcap, hlen, hres⟩ := exec_encdec_masks ht hi hn
  have hn' : n ≤ t.ksCap := hcap.symm ▸ hn
  cases (exec_encdec_reuses (s := t.setData t.result) hi' hn' hlen).symm.trans hu
  refine ⟨fun k hk => ?_, rfl, rfl, rfl⟩
  change bufferBit (maskedResult n t.ksCap t.result t.ks) k = bufferBit s.data k
  rw [hcap, hres]
  exact maskedResult_maskedResult s.data t.ks hk hn

/-- Settles O37: every turn keeps ERR from USAGE, and none but a reset clears init_done. -/
theorem noUsageErrorAfterInit : Obligations.NoUsageErrorAfterInit := by
  intro s t hi herr hstep
  obtain ⟨hclears, -⟩ := initDoneSetByInitClearedByReset.2 s t hstep
  refine ⟨?_, fun hr => ?_⟩
  · rw [step_eq_takeTurn] at hstep
    exact takeTurn_err_ne_usage (s := s.setSched s.sched.tail) hi herr hstep
  · by_contra ht
    rw [hclears hi (Bool.eq_false_iff.mpr ht)] at hr
    cases hr

/-- Settles O40: the frame of every meaning. -/
theorem commandsNeverWriteStagingRegisters : Obligations.CommandsNeverWriteStagingRegisters :=
  fun _ _ _ he => exec_commandWritesOnly he

/-- Settles O59: both sides are the Engine's turn from the state before the bank cycles. -/
theorem engineStepIsAtomicOverBankCycles : Obligations.EngineStepIsAtomicOverBankCycles := by
  intro s k rest
  obtain ⟨u, hrun, hu⟩ := step_engine_after_bankCycles
    (s := s.setSched (List.replicate k .bankCycle ++ .engine :: rest)) k rfl
  exact ⟨u, hrun, hu.trans (step_engineTurn (s := s.setSched (.engine :: rest)) rfl).symm⟩

/-- Settles O11: the pending word decodes, and its meaning is retired. -/
theorem engineStepPerformsDecodedCommand : Obligations.EngineStepPerformsDecodedCommand := by
  intro s w i rest hb hp hd hs
  refine ⟨startBank_none, ?_⟩
  obtain ⟨t, ht⟩ := exec_next i (commandStart (s.setSched rest))
  refine ⟨t, ht, ?_⟩
  rw [step_performCommand hb hp hs, performCommand, hd]
  simp only [ht]
  rfl

/-- Settles O12: an ILLEGAL word starts from the present bank, and leaves an idle block. -/
theorem engineStepOnIllegalWord : Obligations.EngineStepOnIllegalWord := by
  intro s w e rest hb hp hd hs
  have hinactive : activeCommand (s.setSched rest) = none := activeCommand_of_illegal hp hd
  refine ⟨_, ?_, rfl, (statusWord_toNat_idle rfl).trans (Nat.add_comm ..)⟩
  rw [step_performCommand hb hp hs, commandStart_of_inactive hinactive, performCommand, hd]
  rfl

/-- Settles O13: an idle block's turn that is neither the Host's nor a reset passes. -/
theorem idleEngineTurnPasses : Obligations.IdleEngineTurnPasses := by
  intro s rest hb hs
  have hturn : currentTurn s = .engine := by rw [currentTurn, hs]
  rw [step_idle hb (by rw [hturn]; rfl) (by rw [hturn]; nofun), hs]
  rfl

/-- Settles O30: GEN's three results at the boundary lengths. -/
theorem genAtItsBoundaries : Obligations.GenAtItsBoundaries := by
  intro s hi
  refine ⟨?_, ⟨_, exec_gen_runs hi (Nat.le_refl _), genBody_ks_length _ s, rfl⟩,
    exec_of_commandError (i := .gen (s.cap.toNat + 1))
      (lengthCommandError_length hi (Nat.lt_succ_self _))⟩
  exact exec_gen_runs hi (Nat.zero_le _)

end Sys2Proof.Machine

/-! The exceptions (R131 to R137): the one code a failing word reports, that it is all the word
changes, and which turns may write ERR. -/

namespace Sys2Proof.Machine

section FailingWords

variable {s t : State} {w : Word} {i : Instr} {e : ErrCode}

/-! ### The code a word reports (R134) -/

/-- The error a command word reports: ILLEGAL_CMD if it does not decode, else its command's. -/
def wordError (w : Word) (s : State) : Option ErrCode :=
  match decodeCmd w with
  | .error _ => some .illegalCmd
  | .ok i => commandError i s

theorem wordError_of_illegal {d : DecodeError} (h : decodeCmd w = .error d) (s : State) :
    wordError w s = some .illegalCmd := by rw [wordError, h]

theorem wordError_of_decoded (h : decodeCmd w = .ok i) (s : State) :
    wordError w s = commandError i s := by rw [wordError, h]

/-- GEN and ENCDEC report the same code at the same length. -/
theorem wordError_of_lengthCommand {n : Nat}
    (h : decodeCmd w = .ok (.gen n) ∨ decodeCmd w = .ok (.encdec n)) (s : State) :
    wordError w s = lengthCommandError n s := by
  obtain hd | hd := h
  · exact wordError_of_decoded hd s
  · exact wordError_of_decoded hd s

/-- The checks read neither ERR nor the command in flight. -/
theorem wordError_retire_raiseErr (w : Word) (e : ErrCode) (s : State) :
    wordError w (raiseErr e s).retire = wordError w s := by
  cases h : decodeCmd w with
  | error d => rw [wordError_of_illegal h, wordError_of_illegal h]
  | ok i =>
    rw [wordError_of_decoded h, wordError_of_decoded h]
    cases i <;> rfl

/-! ### What a failing word does (R133) -/

/-- A failing word raises its error, and the Engine's step ends. -/
theorem performCommand_of_wordError (h : wordError w s = some e) :
    performCommand w s = .next (raiseErr e s).retire := by
  cases hd : decodeCmd w with
  | error d =>
    cases (wordError_of_illegal hd s).symm.trans h
    rw [performCommand, hd]
    rfl
  | ok i =>
    rw [wordError_of_decoded hd] at h
    rw [performCommand, hd]
    exact congrArg retireAfter (exec_of_commandError h)

/-- A word that reports no error leaves ERR = 0. -/
theorem performCommand_err_of_wordError_none (h : wordError w s = none)
    (ht : performCommand w s = .next t) : t.err = 0#4 := by
  obtain ⟨i, u, hd, hu, hres⟩ | ⟨d, hd, -⟩ := performCommand_cases w s
  · cases hres.symm.trans ht
    obtain ⟨v, hv, herr⟩ := exec_err_of_commandError_none (decodeCmd_isCommand hd)
      ((wordError_of_decoded hd s).symm.trans h)
    cases hv.symm.trans hu
    exact herr
  · cases (wordError_of_illegal hd s).symm.trans h

/-- A word that leaves ERR ≠ 0 has failed a check: it has raised that error and done no more. -/
theorem wordError_of_err_ne_zero (ht : performCommand w s = .next t) (herr : t.err ≠ 0#4) :
    ∃ e, wordError w s = some e ∧ t = (raiseErr e s).retire := by
  cases he : wordError w s with
  | none => exact absurd (performCommand_err_of_wordError_none he ht) herr
  | some e =>
    cases (performCommand_of_wordError he).symm.trans ht
    exact ⟨e, rfl, rfl⟩

end FailingWords

section ErrWrites

variable {s t : State} {turn : Turn}

/-! ### Which turns may write ERR (R135) -/

/-- A turn that is no reset and no Engine turn of a busy block keeps ERR. -/
theorem takeTurn_err (h : takeTurn turn s = .next t) (hr : turn.isReset = false)
    (hb : turn = .engine → s.busy = false) : t.err = s.err := by
  cases turn with
  | host => exact (congrArg State.err (hostTurn_hostWritesOnly h) :)
  | engine =>
    have hpass : takeTurn .engine s = .next s := takeTurn_idle (hb rfl) rfl nofun
    cases hpass.symm.trans h
    rfl
  | reset emitted => cases hr
  | bankCycle => exact (congrArg State.err (bankCycleTurn_frame h) :)

end ErrWrites

/-! ### The obligations -/

/-- Settles O34: the word has raised its error and nothing else. -/
theorem failedCommandChangesOnlyErr : Obligations.FailedCommandChangesOnlyErr := by
  intro s t w ht herr
  obtain ⟨e, -, rfl⟩ := wordError_of_err_ne_zero ht herr
  rfl

/-- Settles O35: the checks read nothing the failure has changed, so the same error is raised. -/
theorem repeatedFailureGivesSameCode : Obligations.RepeatedFailureGivesSameCode := by
  intro s t w ht herr
  obtain ⟨e, he, rfl⟩ := wordError_of_err_ne_zero ht herr
  exact performCommand_of_wordError ((wordError_retire_raiseErr w e s).trans he)

/-- Settles O36: a step is the current turn, and only a reset or the busy Engine writes ERR. -/
theorem errChangesOnlyWhenEngineActs : Obligations.ErrChangesOnlyWhenEngineActs := by
  intro s t hstep hr hb
  rw [step_eq_takeTurn] at hstep
  exact takeTurn_err (s := s.setSched s.sched.tail) hstep hr hb

/-- Settles O33: the code a word reports, in the order of the checks. -/
theorem checkPriority : Obligations.CheckPriority := by
  intro s w
  refine ⟨fun d hd => performCommand_of_wordError (wordError_of_illegal hd s),
    fun n hd => ⟨fun hi => ?_, fun hi hn => ?_⟩⟩
  · exact performCommand_of_wordError
      ((wordError_of_lengthCommand hd s).trans (lengthCommandError_usage hi n))
  · exact performCommand_of_wordError
      ((wordError_of_lengthCommand hd s).trans (lengthCommandError_length hi hn))

end Sys2Proof.Machine

/-! Reset and hazards (R147 to R160): the turn of a reset and the events it may leave, the command
issue rule over every turn, and the counts of bank cycles. -/

namespace Sys2Proof.Machine

section ResetTurn

variable {s t : State}

/-! ### The events of the command in flight (R148) -/

/-- The pending events are those that the Engine's turn adds to the trace. -/
theorem trace_eq_append_pendingEvents (h : engineTurn s = .next t) :
    t.trace = s.trace ++ pendingEvents s := by
  have hdrop : pendingEvents s = t.trace.drop s.trace.length := by rw [pendingEvents, h]
  rw [hdrop]
  exact (List.prefix_iff_eq_append.mp (engineTurn_trace_prefix h)).symm

/-- With no command in flight there are none: the Engine's turn passes. -/
theorem pendingEvents_idle (hb : s.busy = false) : pendingEvents s = [] := by
  have hpass : takeTurn .engine s = .next s := takeTurn_idle hb rfl nofun
  exact List.self_eq_append_right.mp (trace_eq_append_pendingEvents hpass)

/-! ### The reset turn (R147) -/

theorem step_reset {emitted : Nat} {rest : List Turn} (h : s.sched = .reset emitted :: rest) :
    step s = .next (resetTurn emitted (s.setSched rest)) := by
  rw [step, nextTurn, h]
  rfl

end ResetTurn

section IssueRule

variable {s t : State} {l rest : List HostOp} {op : HostOp} {mayIssue : Bool}

/-! ### The command issue rule (R152) -/

/-- A CMD write needs BUSY polled to 0, and the next CMD write a new poll. -/
theorem disciplined_commandWrite (h : op.isCommandWrite = true) :
    disciplined mayIssue (op :: rest) = (mayIssue && disciplined false rest) := by
  cases op with
  | write off size v => exact if_pos h
  | read off size name => cases h
  | poll => cases h

/-- A write to another register leaves the permission as it is. -/
theorem disciplined_otherWrite {off size : Nat} {v : Word}
    (h : (HostOp.write off size v).isCommandWrite = false) :
    disciplined mayIssue (.write off size v :: rest) = disciplined mayIssue rest :=
  if_neg (by simp [h])

/-- A program that keeps the rule keeps it where BUSY has been polled to 0. -/
theorem disciplined_true (h : disciplined mayIssue l = true) : disciplined true l = true := by
  induction l with
  | nil => rfl
  | cons op rest ih =>
    cases op with
    | read off size name => exact ih h
    | poll => exact h
    | write off size v =>
      cases hc : (HostOp.write off size v).isCommandWrite with
      | true =>
        rw [disciplined_commandWrite hc, Bool.and_eq_true] at h
        obtain ⟨-, hrest⟩ := h
        rw [disciplined_commandWrite hc, hrest, Bool.and_self]
      | false =>
        rw [disciplined_otherWrite hc] at h ⊢
        exact ih h

theorem issueDiscipline_of_eq (h : issueDiscipline s = true) (hp : t.prog = s.prog)
    (hb : t.busy = s.busy) : issueDiscipline t = true := by
  rwa [issueDiscipline, hp, hb]

/-- The end of a command only adds permission. -/
theorem issueDiscipline_of_idle (h : issueDiscipline s = true) (hp : t.prog = s.prog)
    (hb : t.busy = false) : issueDiscipline t = true := by
  rw [issueDiscipline, hp, hb]
  exact disciplined_true h

theorem issueDiscipline_setProg (l : List HostOp) (s : State) :
    issueDiscipline (s.setProg l) = disciplined (!s.busy) l := rfl

/-- Where the rule holds and a CMD write is next, the block is idle, and the rest of the program
polls before its next CMD write. -/
theorem issueDiscipline_commandWrite (h : issueDiscipline s = true) (hp : s.prog = op :: rest)
    (hc : op.isCommandWrite = true) : s.busy = false ∧ disciplined false rest = true := by
  rw [issueDiscipline, hp, disciplined_commandWrite hc, Bool.and_eq_true, Bool.not_eq_true'] at h
  exact h

/-! ### The rule over every turn -/

theorem readAndLog_busy (off : Nat) (name : Option String) (s : State) :
    (readAndLog off name s).busy = s.busy := by rw [readAndLog_eq]

theorem isCommandWrite_write {off size : Nat} {v : Word} :
    (HostOp.write off size v).isCommandWrite = true ↔ off = HostReg.cmd.offset ∧ size = 4 := by
  simp [HostOp.isCommandWrite]

/-- A CMD write to an idle block issues its command (R59). -/
theorem memWrite_busy_of_commandWrite {off size : Nat} {v : Word} (hb : s.busy = false)
    (hc : (HostOp.write off size v).isCommandWrite = true) : (memWrite off v s).busy = true := by
  obtain ⟨rfl, -⟩ := isCommandWrite_write.mp hc
  exact congrArg State.busy (memWrite_idle hb .cmd v)

/-- An admitted write that issues no command keeps BUSY (R59). -/
theorem memWrite_busy_of_otherWrite {off size : Nat} {v : Word} (ha : admitted off size = true)
    (hc : (HostOp.write off size v).isCommandWrite = false) :
    (memWrite off v s).busy = s.busy := by
  have hoff : off ≠ HostReg.cmd.offset := fun hcmd => by
    simp only [admitted, Bool.and_eq_true, decide_eq_true_eq] at ha
    obtain ⟨⟨-, hsize⟩, -⟩ := ha
    rw [isCommandWrite_write.mpr ⟨hcmd, hsize⟩] at hc
    cases hc
  obtain h | ⟨-, hcmd, -⟩ | ⟨-, -, ⟨k, h⟩ | ⟨f, h⟩ | ⟨i, h⟩ | h⟩ := memWrite_cases off v s
  · rw [h]
  · exact absurd hcmd hoff
  all_goals (rw [h]; rfl)

/-- The Host's turn: a CMD write uses the permission up, and the end of a poll renews it. -/
theorem issueDiscipline_hostTurn (h : issueDiscipline s = true) (ht : hostTurn s = .next t) :
    issueDiscipline t = true := by
  obtain ⟨-, rfl⟩ | ⟨off, size, name, rest, hp, -, rfl⟩ | ⟨off, size, v, rest, hp, ha, rfl⟩ |
    ⟨rest, hp, ⟨-, rfl⟩ | ⟨hbit, rfl⟩⟩ := hostTurn_cases ht
  · exact h
  · rw [issueDiscipline, hp] at h
    rwa [issueDiscipline_setProg, readAndLog_busy]
  · cases hc : (HostOp.write off size v).isCommandWrite with
    | true =>
      obtain ⟨hb, hrest⟩ := issueDiscipline_commandWrite h hp hc
      rwa [issueDiscipline_setProg, memWrite_busy_of_commandWrite hb hc]
    | false =>
      rw [issueDiscipline, hp, disciplined_otherWrite hc] at h
      rwa [issueDiscipline_setProg, memWrite_busy_of_otherWrite ha hc]
  · exact issueDiscipline_of_eq h (readAndLog_prog 4 none s) (readAndLog_busy 4 none s)
  · rw [memRead_status_getLsbD_zero] at hbit
    rw [issueDiscipline, hp] at h
    rwa [issueDiscipline_setProg, readAndLog_busy, hbit]

/-- The Engine's turn passes, or ends the command. -/
theorem issueDiscipline_engineTurn (h : issueDiscipline s = true) (he : engineTurn s = .next t) :
    issueDiscipline t = true := by
  obtain ⟨-, hres⟩ | ⟨w, -, -, hres⟩ | ⟨-, -, hres⟩ := engineTurn_cases s
  · cases hres.symm.trans he
    exact h
  · obtain ⟨u, hu, hidle, -, hprog⟩ := performCommand_next w (commandStart s)
    cases (hres.trans hu).symm.trans he
    exact issueDiscipline_of_idle h hprog hidle
  · cases hres.symm.trans he

theorem issueDiscipline_takeTurn {turn : Turn} (h : issueDiscipline s = true)
    (ht : takeTurn turn s = .next t) : issueDiscipline t = true := by
  cases turn with
  | host => exact issueDiscipline_hostTurn h ht
  | engine => exact issueDiscipline_engineTurn h ht
  | reset emitted => cases ht; exact issueDiscipline_of_idle h rfl rfl
  | bankCycle =>
    have hframe := bankCycleTurn_frame ht
    exact issueDiscipline_of_eq h (congrArg State.prog hframe :) (congrArg State.busy hframe :)

end IssueRule

section CycleCounts

/-! ### The counts of bank cycles (R160) -/

/-- The sequencer drives bank operations, and no command (R80). -/
theorem isCommand_of_mem_bankSequence {s : State} {i op : Instr} (h : op ∈ bankSequence s i) :
    isCommand op = false := by
  have hmsteps {n : Nat} (h : op ∈ List.replicate n .mstep) : isCommand op = false := by
    rw [List.eq_of_mem_replicate h]
    rfl
  cases i with
  | init fe =>
    rw [bankSequence_init, List.mem_append, List.mem_append, List.mem_singleton, List.mem_map] at h
    obtain (rfl | ⟨x, -, rfl⟩) | h := h
    · rfl
    · rfl
    · exact hmsteps h
  | gen n => exact hmsteps h
  | encdec n =>
    rw [bankSequence] at h
    split at h
    · exact hmsteps h
    · cases h
  | hold => rw [List.mem_singleton.mp h]; rfl
  | clear => rw [List.mem_singleton.mp h]; rfl
  | load din => rw [List.mem_singleton.mp h]; rfl
  | mstep => rw [List.mem_singleton.mp h]; rfl

/-- Each bank operation has a port word (R81). -/
theorem portWordOf_isSome {op : Instr} (h : isCommand op = false) :
    (portWordOf op).isSome = true := by
  cases op with
  | init fe => cases h
  | gen n => cases h
  | encdec n => cases h
  | _ => rfl

/-- A command takes one bank cycle for each of its bank operations. -/
theorem portSequence_length (s : State) (i : Instr) :
    (portSequence s i).length = (bankSequence s i).length :=
  List.filterMap_length_eq_length.mpr fun _ hop =>
    portWordOf_isSome (isCommand_of_mem_bankSequence hop)

/-- INIT's bank cycles: CLEAR, the key bits, the frame bits if there is a frame, the warm-up. -/
theorem portSequence_init_length (fe : Bool) (s : State) :
    (portSequence s (.init fe)).length = referenceCycles (.init fe) s.ksLen s.ksCap := by
  rw [portSequence_length, bankSequence_init]
  cases fe <;> simp [fedBits, keyBitsOf, frameBitsOf, Config.warmup, referenceCycles]

theorem portSequence_gen_length (n : Nat) (s : State) : (portSequence s (.gen n)).length = n :=
  (portSequence_length s (.gen n)).trans List.length_replicate

/-- ENCDEC drives the bank only if it regenerates (R118). -/
theorem portSequence_encdec_length (n : Nat) (s : State) :
    (portSequence s (.encdec n)).length = if s.ks.length < n then n else 0 := by
  rw [portSequence_length, bankSequence, State.ksLen]
  split
  · exact List.length_replicate
  · rfl

end CycleCounts

/-! ### The obligations -/

/-- Settles O42: the events are those the Engine's turn would have added. -/
theorem resetTurnRestoresResetState : Obligations.ResetTurnRestoresResetState := by
  intro s emitted rest hs
  refine ⟨pendingEvents (s.setSched rest), step_reset hs, fun hb => pendingEvents_idle hb,
    fun w t hb hp ht => ?_⟩
  have hkeeps : KeepsCommand s (s.setSched rest) := keepsCommand_of_withAgents rfl
  exact (trace_eq_append_pendingEvents (engineTurn_of_keepsCommand hkeeps hb hp ht) :)

/-- Settles O5: every turn keeps the rule, and the rule allows a CMD write only with BUSY = 0. -/
theorem polledCommandWritesAreNeverLost : Obligations.PolledCommandWritesAreNeverLost := by
  refine ⟨fun s t h hstep => ?_, fun s op rest h hp hc => ?_⟩
  · rw [step_eq_takeTurn] at hstep
    exact issueDiscipline_takeTurn (s := s.setSched s.sched.tail) h hstep
  · obtain ⟨hb, -⟩ := issueDiscipline_commandWrite h hp hc
    exact hb

/-- Settles O45: a command takes one bank cycle for each of its bank operations. -/
theorem referenceBankCycleCounts : Obligations.ReferenceBankCycleCounts := fun s n =>
  ⟨portSequence_init_length false s, portSequence_init_length true s,
    fun fe => portSequence_init_length fe s, portSequence_gen_length n s,
    portSequence_encdec_length n s⟩

end Sys2Proof.Machine
